-- ==== Sys2Proof/Word.lean ====
section
/-! DEFINITION. The word types of the block: bytes, the 16-bit value of a bus transaction, the 24-bit
operation word, the 10-bit request word and the 6-bit counters. -/

namespace Sys2Proof

/-- One byte of a 2-byte transaction (20 R36, R37). -/
abbrev Byte := BitVec 8

/-- The 16-bit value of one transaction: a sample `RAW` (30 R49) or an output word `OUTW` (30 R56). -/
abbrev Word16 := BitVec 16

/-- The operation word `OPW` (30 R59). -/
abbrev OpWord := BitVec 24

/-- The control-request word `CTRLW` (30 R60). -/
abbrev CtrlWord := BitVec 10

/-- A counter: `ACC_W = WCNT_W = 6` (10 R11, R12). -/
abbrev Count := BitVec 6

end Sys2Proof
end

