-- ==== Sys2Proof/Syntax.lean ====
section
/-! DEFINITION. The names of the block's formats (30_encoding.md) and `Instr`, the one type of everything
the opcode table lists: five operations (format OPW), nine output words (format OUTW) and twelve sample
patterns (format RAW). -/

namespace Sys2Proof

/-- Matrix rows, `NROW = 4` (00 R5). -/
inductive Row where
  | r0 | r1 | r2 | r3
  deriving DecidableEq, Repr

/-- Matrix columns, `NCOL = 3` (00 R5). -/
inductive Col where
  | c0 | c1 | c2
  deriving DecidableEq, Repr

/-- The values of `DS.speed` (30 R52). -/
inductive Speed where
  | off | low | medium | high | invalid
  deriving DecidableEq, Repr

/-- The values of `DS.osc` (30 R53). -/
inductive Osc where
  | off | on | invalid
  deriving DecidableEq, Repr

/-- The values of `DS.mode` (30 R54). -/
inductive Mode where
  | off | normal | nature | sleep | invalid
  deriving DecidableEq, Repr

/-- The values of `DS.timer`: a mask of four duration bits, or the sentinel (30 R55). -/
inductive TimerVal where
  | mask (m : BitVec 4)
  | invalid
  deriving DecidableEq, Repr

/-- The record `DS` (10 R13). -/
structure Decoded where
  speed : Speed
  osc   : Osc
  mode  : Mode
  timer : TimerVal
  deriving DecidableEq, Repr

/-- The three preset modes a lit cell can name (30 R58). -/
inductive ModeCell where
  | normal | nature | sleep
  deriving DecidableEq, Repr

/-- The six button symbols (30 R57). -/
inductive Button where
  | off | timer | speed | onspeed | mode | swing
  deriving DecidableEq, Repr

/-- The speed field of a request (30 R60); code 0 is reserved (30 R62 (4)). -/
inductive ReqSpeed where
  | reserved | low | medium | high
  deriving DecidableEq, Repr

/-- The mode field of a request (30 R60); code 0 is the "off" sentinel preset. -/
inductive ReqMode where
  | off | normal | nature | sleep
  deriving DecidableEq, Repr

/-- The request operand of `CTRL` (30 R60): a field is absent where its `_set` bit is 0, since its value
is "read only if" that bit is 1. `power` and `osc` are true for on. -/
structure CtrlReq where
  power : Option Bool
  speed : Option ReqSpeed
  osc   : Option Bool
  mode  : Option ReqMode
  deriving DecidableEq, Repr

/-- One constructor per row of spec/opcode_table.json. `wf` is the environment's answer to the write the
operation may issue, true when the write fails (30 R59; 20 R34); `raw` is a whole 16-bit sample. -/
inductive Instr where
  | pollOk (raw : Word16)
  | pollFail
  | ctrl (wf : Bool) (req : CtrlReq)
  | tadv (wf : Bool)
  | texp (wf : Bool)
  | pressB0 (wf : Bool)
  | pressB1 (wf : Bool)
  | pressB2 (wf : Bool)
  | pressB3 (wf : Bool)
  | pressB4 (wf : Bool)
  | pressB5 (wf : Bool)
  | pressB6 (wf : Bool)
  | pressB7 (wf : Bool)
  | release (wf : Bool)
  | litR0C0 (raw : Word16)
  | litR0C1 (raw : Word16)
  | litR0C2 (raw : Word16)
  | litR1C0 (raw : Word16)
  | litR1C1 (raw : Word16)
  | litR1C2 (raw : Word16)
  | litR2C0 (raw : Word16)
  | litR2C1 (raw : Word16)
  | litR2C2 (raw : Word16)
  | litR3C0 (raw : Word16)
  | litR3C1 (raw : Word16)
  | litR3C2 (raw : Word16)
  deriving DecidableEq, Repr

end Sys2Proof
end

