-- ==== Sys2Proof/Config.lean ====
section
/-! DEFINITION. What is fixed for the hardware (00 R5), what the spec leaves open as a parameter (00 R6),
and the one free value of the model. -/

namespace Sys2Proof

/-- `WINDOW`: samples per debounce window (00 R5). -/
def Config.window : Count := 32

/-- `THRESH`: a cell is lit iff its count is strictly greater (00 R5). -/
def Config.thresh : Count := 2

/-- `T_PRESS` in milliseconds (00 R5). -/
def Config.tPress : Nat := 50

/-- `T_GAP` in milliseconds (00 R5). -/
def Config.tGap : Nat := 50

/-- `QDEPTH` (00 R6, D15): the bound of the queue, never reached past (41 R107). -/
def Config.qDepth : Nat := 8

/-- FREE VALUE (log 6). 70 R147 says `round(0.050 * F_CLK)` and not what `round` does with a product that
ends in exactly one half; whether it then goes up is this value, for each clock frequency. -/
opaque Config.roundTieUp : Nat → Bool

/-- `ROW_BIT` (00 R6): the bit of sample byte 0 that carries each row. -/
structure RowBits where
  r0 : Fin 8
  r1 : Fin 8
  r2 : Fin 8
  r3 : Fin 8
  deriving DecidableEq, Repr

/-- `COL_BIT` (00 R6): the bit of sample byte 0 that carries each column. -/
structure ColBits where
  c0 : Fin 8
  c1 : Fin 8
  c2 : Fin 8
  deriving DecidableEq, Repr

/-- `BTN_BIT` (00 R6, 30 R57): the output bit position of each button symbol. -/
structure BtnBits where
  off     : Fin 8
  timer   : Fin 8
  speed   : Fin 8
  onspeed : Fin 8
  mode    : Fin 8
  swing   : Fin 8
  deriving DecidableEq, Repr

/-- The parameters of 00 R6 the spec leaves open. They are configuration, not architectural state (10 R25): no
field of `Block`, but the argument every operation of the block is given, under every value of which the
statements hold (log 2). `POLL_INTERVAL` is not among them: DESIGN CHOICE, polls come when the host's moves bring
them, for "no rule depends on its value" (60 R123; log 16); `QDEPTH` has its one value in `Config`. -/
structure Params where
  /-- `ROW_BIT` -/
  rowBit : RowBits
  /-- `COL_BIT` -/
  colBit : ColBits
  /-- `ROW_ACTIVE`: the level of a row bit that means "asserted" -/
  rowActive : Bool
  /-- `BTN_BIT` -/
  btnBit : BtnBits
  /-- `CFG_ONOFF_INDEPENDENT` -/
  onOffIndependent : Bool
  /-- `MODE_PRIORITY`: the last listed lit mode wins -/
  modePriority : List ModeCell
  /-- `F_CLK` in Hz -/
  fClk : Nat
  /-- `RESTORE_SNAPSHOT` (70 R132) -/
  restore : Option Decoded
  deriving DecidableEq, Repr

/-- The defaults of 00 R6. `onOffIndependent` and `fClk` have no default in the spec: DESIGN CHOICE, the
values most vectors of 95_test_vectors.md use (log 2). -/
def Params.default : Params where
  rowBit := ⟨4, 5, 6, 7⟩
  colBit := ⟨1, 2, 3⟩
  rowActive := true
  btnBit := ⟨0, 1, 2, 3, 4, 5⟩
  onOffIndependent := true
  modePriority := [.normal, .nature, .sleep]
  fClk := 1000
  restore := none

/-- None of the four fields is the sentinel. -/
abbrev Decoded.real (d : Decoded) : Prop :=
  d.speed ≠ .invalid ∧ d.osc ≠ .invalid ∧ d.mode ≠ .invalid ∧ d.timer ≠ .invalid

/-- The legal parameters: rows in bits 7:4 and columns in bits 3:1 (30 R49), each and `BTN_BIT` injective
(00 R6, 30 R57), `MODE_PRIORITY` an order of the three modes, a snapshot of real values (70 R132) (log 14). -/
abbrev Params.Legal (p : Params) : Prop :=
  ([p.rowBit.r0, p.rowBit.r1, p.rowBit.r2, p.rowBit.r3].Nodup ∧
    4 ≤ p.rowBit.r0 ∧ 4 ≤ p.rowBit.r1 ∧ 4 ≤ p.rowBit.r2 ∧ 4 ≤ p.rowBit.r3) ∧
  ([p.colBit.c0, p.colBit.c1, p.colBit.c2].Nodup ∧
    (1 ≤ p.colBit.c0 ∧ p.colBit.c0 ≤ 3) ∧ (1 ≤ p.colBit.c1 ∧ p.colBit.c1 ≤ 3) ∧
    (1 ≤ p.colBit.c2 ∧ p.colBit.c2 ≤ 3)) ∧
  [p.btnBit.off, p.btnBit.timer, p.btnBit.speed, p.btnBit.onspeed, p.btnBit.mode, p.btnBit.swing].Nodup ∧
  (p.modePriority.Nodup ∧ p.modePriority.length = 3) ∧
  (∀ d ∈ p.restore, Decoded.real d)

end Sys2Proof
end

