-- ==== Sys2Proof/WellFormed.lean ====
section
/-! DEFINITION. Which terms of `Instr` stand for a word of the table. The types carry every other check;
what is left is that a sample pattern's sample shows the pattern (30 R51). -/

namespace Sys2Proof

/-- The bit of a sample that carries row r in the default layout, `4 + r` (30 R49). -/
def Row.defaultBit : Row → Nat
  | .r0 => 4
  | .r1 => 5
  | .r2 => 6
  | .r3 => 7

/-- The bit of a sample that carries column c in the default layout, `1 + c` (30 R49). -/
def Col.defaultBit : Col → Nat
  | .c0 => 1
  | .c1 => 2
  | .c2 => 3

/-- Sample `raw` lights cell (r,c) in the default layout: the row bit reads 1 and the column bit reads 0
(30 R50, R51). -/
def showsCell (r : Row) (c : Col) (raw : Word16) : Bool :=
  raw.getLsbD r.defaultBit && !raw.getLsbD c.defaultBit

/-- The check of one instruction. Every operation and output word passes (a reserved request speed is
legal and ignored, 30 R62 (4)); a pattern passes when its sample lights its cell. -/
def wellFormed : Instr → Bool
  | .pollOk _ => true
  | .pollFail => true
  | .ctrl _ _ => true
  | .tadv _ => true
  | .texp _ => true
  | .pressB0 _ => true
  | .pressB1 _ => true
  | .pressB2 _ => true
  | .pressB3 _ => true
  | .pressB4 _ => true
  | .pressB5 _ => true
  | .pressB6 _ => true
  | .pressB7 _ => true
  | .release _ => true
  | .litR0C0 raw => showsCell .r0 .c0 raw
  | .litR0C1 raw => showsCell .r0 .c1 raw
  | .litR0C2 raw => showsCell .r0 .c2 raw
  | .litR1C0 raw => showsCell .r1 .c0 raw
  | .litR1C1 raw => showsCell .r1 .c1 raw
  | .litR1C2 raw => showsCell .r1 .c2 raw
  | .litR2C0 raw => showsCell .r2 .c0 raw
  | .litR2C1 raw => showsCell .r2 .c1 raw
  | .litR2C2 raw => showsCell .r2 .c2 raw
  | .litR3C0 raw => showsCell .r3 .c0 raw
  | .litR3C1 raw => showsCell .r3 .c1 raw
  | .litR3C2 raw => showsCell .r3 .c2 raw

end Sys2Proof
end

