-- ==== Sys2Proof/Decode.lean ====
section
/-! DEFINITION. From the bytes of a transfer to an instruction, total and rejecting by name, and back.
"Nothing is self-describing": the port a value stands on says its format (30 R66). -/

namespace Sys2Proof

/-- Where a value stands: the operation word of a trace (30 R59), the read port, the write port (30 R66). -/
inductive Port where
  | opw | led | btn
  deriving DecidableEq, Repr

/-- The bytes of one value on a port, first byte first. A 2-byte transaction carries bits 7:0 in byte 0
(20 R36, R37); for the operation word the model takes the same order (log 3). On the write port a third byte
carries the environment's answer `wf` in its bit 0, the rest ignored; it is absent where the write
succeeds (log 3). -/
structure Transfer where
  port  : Port
  bytes : List Byte
  deriving DecidableEq, Repr

/-- Why a transfer is no instruction. -/
inductive DecodeError where
  /-- `OPW.opc` 5, 6 or 7 names no operation (30 R62 (3)). -/
  | reservedOpc (opc : Nat)
  /-- A value the block never writes (30 R56, R62 (6)). -/
  | notAnOutputWord (v : Word16)
  /-- Not the port's number of bytes (20 R38). -/
  | wrongLength (port : Port) (n : Nat)
  /-- A write of which no byte was moved: the bytes do not say which word it was. A step takes it from the drain
  (`dueWrite`) and never refuses it so (20 R38; log 9). -/
  | emptyWrite
  deriving DecidableEq, Repr

/-- The sample or output word of two bytes, `{byte1, byte0}` (20 R36, R37). -/
def word16 (b0 b1 : Byte) : Word16 := b1 ++ b0

/-- The operation word of three bytes, least significant first (log 3). -/
def word24 (b0 b1 b2 : Byte) : OpWord := b2 ++ b1 ++ b0

/-! ### The formats OPW and CTRLW (30 R59, R60) -/

/-- Speed codes of a request (30 R60, R52). -/
def reqSpeedOf (code : BitVec 2) : ReqSpeed :=
  if code = 1 then .low else if code = 2 then .medium else if code = 3 then .high else .reserved

/-- Mode codes of a request (30 R60, R54). -/
def reqModeOf (code : BitVec 2) : ReqMode :=
  if code = 1 then .normal else if code = 2 then .nature else if code = 3 then .sleep else .off

/-- `CTRLW` (30 R60): each value is read only if its `_set` bit is 1. -/
def decodeCtrlw (w : CtrlWord) : CtrlReq where
  power := if w.getLsbD 0 then some (w.getLsbD 1) else none
  speed := if w.getLsbD 2 then some (reqSpeedOf (w.extractLsb' 3 2)) else none
  osc   := if w.getLsbD 5 then some (w.getLsbD 6) else none
  mode  := if w.getLsbD 7 then some (reqModeOf (w.extractLsb' 8 2)) else none

/-- `OPW` (30 R59): `opc` in bits 23:21, `wf` in bit 20, `opd` in bits 15:0; bits 19:16 and the operand
bits an operation does not use are ignored (30 R62 (5)). -/
def decodeOpw (w : OpWord) : Except DecodeError Instr :=
  let opc := (w.extractLsb' 21 3).toNat
  let wf := w.getLsbD 20
  if opc = 0 then .ok (.pollOk (w.extractLsb' 0 16))
  else if opc = 1 then .ok .pollFail
  else if opc = 2 then .ok (.ctrl wf (decodeCtrlw (w.extractLsb' 0 10)))
  else if opc = 3 then .ok (.tadv wf)
  else if opc = 4 then .ok (.texp wf)
  else .error (.reservedOpc opc)

/-! ### The format OUTW (30 R56) -/

/-- The nine values the block writes, with the environment's answer. -/
def decodeOutw (v : Word16) (wf : Bool) : Except DecodeError Instr :=
  if v = 0xFFFE then .ok (.pressB0 wf)
  else if v = 0xFFFD then .ok (.pressB1 wf)
  else if v = 0xFFFB then .ok (.pressB2 wf)
  else if v = 0xFFF7 then .ok (.pressB3 wf)
  else if v = 0xFFEF then .ok (.pressB4 wf)
  else if v = 0xFFDF then .ok (.pressB5 wf)
  else if v = 0xFFBF then .ok (.pressB6 wf)
  else if v = 0xFF7F then .ok (.pressB7 wf)
  else if v = 0xFFFF then .ok (.release wf)
  else .error (.notAnOutputWord v)

/-! ### The format RAW (30 R49, R51) -/

/-- The mask of a cell's pattern, from the table of 30 R51. -/
def cellMask : Row → Col → Word16
  | .r0, .c0 => 0x12
  | .r0, .c1 => 0x14
  | .r0, .c2 => 0x18
  | .r1, .c0 => 0x22
  | .r1, .c1 => 0x24
  | .r1, .c2 => 0x28
  | .r2, .c0 => 0x42
  | .r2, .c1 => 0x44
  | .r2, .c2 => 0x48
  | .r3, .c0 => 0x82
  | .r3, .c1 => 0x84
  | .r3, .c2 => 0x88

/-- The match of a cell's pattern, from the table of 30 R51. -/
def cellMatch : Row → Word16
  | .r0 => 0x10
  | .r1 => 0x20
  | .r2 => 0x40
  | .r3 => 0x80

/-- Sample `raw` shows the pattern of cell (r,c). -/
def matchesCell (r : Row) (c : Col) (raw : Word16) : Bool := (raw &&& cellMask r c) == cellMatch r

/-- The pattern instruction of a cell. -/
def litInstr : Row → Col → Word16 → Instr
  | .r0, .c0 => .litR0C0
  | .r0, .c1 => .litR0C1
  | .r0, .c2 => .litR0C2
  | .r1, .c0 => .litR1C0
  | .r1, .c1 => .litR1C1
  | .r1, .c2 => .litR1C2
  | .r2, .c0 => .litR2C0
  | .r2, .c1 => .litR2C1
  | .r2, .c2 => .litR2C2
  | .r3, .c0 => .litR3C0
  | .r3, .c1 => .litR3C1
  | .r3, .c2 => .litR3C2

/-- The press instruction of a line (30 R56). -/
def pressInstr : Fin 8 → Bool → Instr
  | 0 => .pressB0
  | 1 => .pressB1
  | 2 => .pressB2
  | 3 => .pressB3
  | 4 => .pressB4
  | 5 => .pressB5
  | 6 => .pressB6
  | 7 => .pressB7

/-- The cells in the order of the opcode table. -/
def tableCells : List (Row × Col) :=
  [(.r0, .c0), (.r0, .c1), (.r0, .c2), (.r1, .c0), (.r1, .c1), (.r1, .c2),
   (.r2, .c0), (.r2, .c1), (.r2, .c2), (.r3, .c0), (.r3, .c1), (.r3, .c2)]

/-- The first cell of `cells` whose pattern `raw` shows. -/
def firstCell (raw : Word16) : List (Row × Col) → Option (Row × Col)
  | [] => none
  | (r, c) :: rest => if matchesCell r c raw then some (r, c) else firstCell raw rest

/-- A sample on the read port. The patterns "are not mutually exclusive" (30 R66), so a sample that shows
several is named by the first in the table (log 4); one that shows none is a poll all the same, "there is
no illegal sample" (30 R62 (2)). -/
def decodeRaw (raw : Word16) : Instr :=
  match firstCell raw tableCells with
  | some (r, c) => litInstr r c raw
  | none => .pollOk raw

/-! ### Transfers -/

/-- The instruction of any bytes on any port. Fewer than 2 bytes are "a failed transaction" (20 R38): on the read port
`POLL.FAIL` (20 R42), on the write port the failed write of the word whose byte 0 was moved, byte 1 of every word
being 0xFF (30 R56; log 9). -/
def decode : Transfer → Except DecodeError Instr
  | ⟨.opw, [b0, b1, b2]⟩ => decodeOpw (word24 b0 b1 b2)
  | ⟨.led, []⟩ => .ok .pollFail
  | ⟨.led, [_]⟩ => .ok .pollFail
  | ⟨.led, [b0, b1]⟩ => .ok (decodeRaw (word16 b0 b1))
  | ⟨.btn, []⟩ => .error .emptyWrite
  | ⟨.btn, [b0]⟩ => decodeOutw (word16 b0 0xFF) true
  | ⟨.btn, [b0, b1]⟩ => decodeOutw (word16 b0 b1) false
  | ⟨.btn, [b0, b1, answer]⟩ => decodeOutw (word16 b0 b1) (answer.getLsbD 0)
  | ⟨port, bytes⟩ => .error (.wrongLength port bytes.length)

/-! ### The encoder -/

/-- The code of a request speed (30 R60, R52). -/
def reqSpeedCode : ReqSpeed → BitVec 2
  | .reserved => 0
  | .low => 1
  | .medium => 2
  | .high => 3

/-- The code of a request mode (30 R60, R54). -/
def reqModeCode : ReqMode → BitVec 2
  | .off => 0
  | .normal => 1
  | .nature => 2
  | .sleep => 3

/-- `CTRLW` of a request, an absent field all zeros (30 R60, R63). -/
def encodeCtrlw (req : CtrlReq) : CtrlWord :=
  let bit (b : Bool) : BitVec 1 := BitVec.ofBool b
  (req.mode.elim 0 reqModeCode) ++ bit req.mode.isSome ++
  bit (req.osc.getD false) ++ bit req.osc.isSome ++
  (req.speed.elim 0 reqSpeedCode) ++ bit req.speed.isSome ++
  bit (req.power.getD false) ++ bit req.power.isSome

/-- `OPW` from its fields (30 R59). -/
def opwOf (opc : BitVec 3) (wf : Bool) (opd : Word16) : OpWord :=
  opc ++ BitVec.ofBool wf ++ (0 : BitVec 4) ++ opd

/-- The three bytes of an operation word. -/
def opwTransfer (w : OpWord) : Transfer :=
  ⟨.opw, [w.extractLsb' 0 8, w.extractLsb' 8 8, w.extractLsb' 16 8]⟩

/-- The two bytes of a sample. -/
def ledTransfer (raw : Word16) : Transfer := ⟨.led, [raw.extractLsb' 0 8, raw.extractLsb' 8 8]⟩

/-- The two bytes of an output word and the byte of the environment's answer. -/
def btnTransfer (v : Word16) (wf : Bool) : Transfer :=
  ⟨.btn, [v.extractLsb' 0 8, v.extractLsb' 8 8, (BitVec.ofBool wf).setWidth 8]⟩

/-- The bytes that stand for an instruction, from the formats of 30_encoding.md. -/
def encode : Instr → Transfer
  | .pollOk raw => opwTransfer (opwOf 0 false raw)
  | .pollFail => opwTransfer (opwOf 1 false 0)
  | .ctrl wf req => opwTransfer (opwOf 2 wf ((encodeCtrlw req).setWidth 16))
  | .tadv wf => opwTransfer (opwOf 3 wf 0)
  | .texp wf => opwTransfer (opwOf 4 wf 0)
  | .pressB0 wf => btnTransfer 0xFFFE wf
  | .pressB1 wf => btnTransfer 0xFFFD wf
  | .pressB2 wf => btnTransfer 0xFFFB wf
  | .pressB3 wf => btnTransfer 0xFFF7 wf
  | .pressB4 wf => btnTransfer 0xFFEF wf
  | .pressB5 wf => btnTransfer 0xFFDF wf
  | .pressB6 wf => btnTransfer 0xFFBF wf
  | .pressB7 wf => btnTransfer 0xFF7F wf
  | .release wf => btnTransfer 0xFFFF wf
  | .litR0C0 raw => ledTransfer raw
  | .litR0C1 raw => ledTransfer raw
  | .litR0C2 raw => ledTransfer raw
  | .litR1C0 raw => ledTransfer raw
  | .litR1C1 raw => ledTransfer raw
  | .litR1C2 raw => ledTransfer raw
  | .litR2C0 raw => ledTransfer raw
  | .litR2C1 raw => ledTransfer raw
  | .litR2C2 raw => ledTransfer raw
  | .litR3C0 raw => ledTransfer raw
  | .litR3C1 raw => ledTransfer raw
  | .litR3C2 raw => ledTransfer raw

/-! ### Words as the opcode table numbers them -/

/-- The nine words of the table's format OUTW (30 R56). -/
def isOutputWord (v : Word16) : Bool :=
  match decodeOutw v false with
  | .ok _ => true
  | .error _ => false

/-- The transfer of a table row's word. A 24-bit row is an OPW; the 16-bit rows have two formats the word
alone does not tell apart (30 R66): one of the nine output words is taken to stand on the write port (its
pattern fixes every bit), any other word on the read port (log 4). -/
def tableTransfer (nbits w : Nat) : Transfer :=
  if nbits ≤ 16 then
    let v : Word16 := BitVec.ofNat 16 w
    if isOutputWord v then btnTransfer v false else ledTransfer v
  else opwTransfer (BitVec.ofNat 24 w)

/-- What the decoder reads from a word of the table's numbering. -/
def decodeTableWord (nbits w : Nat) : Option Instr :=
  match decode (tableTransfer nbits w) with
  | .ok i => some i
  | .error _ => none

end Sys2Proof
end

