-- ==== Sys2Proof/Machine/State.lean ====
section
/-! DEFINITION. The state of the block as plain data (10_state.md), the fields of 10 R10; and the machine around
it: the block, its configuration, the host's pending moves and the events of the last step. -/

namespace Sys2Proof.Machine

/-- A value per cell of the 4×3 matrix (10 R11). -/
structure Grid (α : Type) where
  r0c0 : α
  r0c1 : α
  r0c2 : α
  r1c0 : α
  r1c1 : α
  r1c2 : α
  r2c0 : α
  r2c1 : α
  r2c2 : α
  r3c0 : α
  r3c1 : α
  r3c2 : α
  deriving DecidableEq, Repr

/-- Where the drain loop stands (10 R22). -/
inductive Phase where
  | idle | press | gap
  deriving DecidableEq, Repr

/-- `TMR` (10 R23): idle, or armed with a remaining time, counted in clock cycles as the pin level's
down-counter `DLY` does (70 R147). -/
inductive Tmr where
  | idle
  | armed (left : Nat)
  deriving DecidableEq, Repr

/-- The two errors that are logged (60 R109). -/
inductive ErrKind where
  | rd | wr
  deriving DecidableEq, Repr

/-- Why a request was dropped (60 R112). -/
inductive DropReason where
  | busy | noState
  deriving DecidableEq, Repr

/-- The output events (10 R27). -/
inductive Event where
  | wr (v : Word16)
  | notify (speed : Speed) (osc : Osc) (mode : Mode)
  | timerText (t : TimerVal)
  | log (e : ErrKind)
  | dropped (why : DropReason)
  deriving DecidableEq, Repr

/-- The input pins of one clock cycle (20 R47, 30 R65, 70 R129). -/
structure Pins where
  rst       : Bool
  pollValid : Bool
  pollOk    : Bool
  pollData  : Word16
  ctrlValid : Bool
  ctrlReq   : CtrlWord
  tadvValid : Bool
  wrFail    : Bool
  cfgOnOff  : Bool
  deriving DecidableEq, Repr

/-- One move of the host (70 R150): present a value on a port (an operation with its answers), let one clock
cycle pass with the given pins (70 R147), or reset the block (70 R129). -/
inductive HostMove where
  | present (t : Transfer)
  | clock (p : Pins)
  | reset
  deriving DecidableEq, Repr

/-- The state of the block: "a model's state type has exactly these fields" (10 R10). -/
structure Block where
  /-- `ACC[r][c]` (10 R11) -/
  acc : Grid Count
  /-- `WCNT` (10 R12) -/
  wcnt : Count
  /-- `DS` (10 R13) -/
  ds : Decoded
  /-- `Q`, oldest first (10 R19) -/
  q : List Button
  /-- `PROC` (10 R21) -/
  proc : Bool
  /-- `PHASE` (10 R22) -/
  phase : Phase
  /-- `TMR` (10 R23) -/
  tmr : Tmr
  /-- `OUT` (10 R24) -/
  out : Word16
  deriving DecidableEq, Repr

/-- The block inside an operation: its state and the events emitted so far, the two an operation returns
(00 R7, 10 R27), and the write port it drives. Every operation of the block is a function on this, with the
configuration as an argument. -/
structure Work extends Block where
  /-- what stands on the write port, the pins `btn_out`: the value of the last write, "held until the next write"
  (20 R40, R47; 70 R147); no field of the block (10 R10), and unlike `OUT` untouched by a reset (log 15) -/
  port : Word16
  /-- the output events, in order (10 R27); outputs, not state of the block -/
  events : List Event
  deriving DecidableEq, Repr

/-- The whole machine, which the host steps: the block with its write port and the events of its last step, and beside it what is
not state of the block: its configuration, the argument of every operation (10 R25, log 2), and the environment
(log 1). -/
structure State extends Work where
  /-- the configuration (00 R6, 10 R25) -/
  params : Params
  /-- the environment: the host's pending moves, oldest first (log 1) -/
  inbox : List HostMove
  deriving DecidableEq, Repr

/-- What stops the machine inside an operation. No run reaches either (10 R28 (3), (4); log 10); both are safe: the
model stops where the spec states no effect. -/
inductive Fault where
  /-- Raised by `TEXP` in phase GAP with an empty queue: the precondition of `ASSERT` fails (41 R99). Safe. -/
  | assertEmptyQueue
  /-- Raised by `TEXP` in phase PRESS and by `RELEASE` with an empty queue: nothing to pop (41 R101). Safe. -/
  | popEmptyQueue
  deriving DecidableEq, Repr

/-- What is no step of the machine. -/
inductive Refusal where
  /-- Raised by `exec` for an instruction without a meaning yet; none is left. Safe. -/
  | notModelled (mnemonic : String)
  /-- Raised by `TEXP` with `TMR` idle: "not a step of the machine" (41 R100). Safe. -/
  | delayNotArmed
  /-- Raised by `PRESS.b0` to `PRESS.b7` where no assert of that line is due: the queue is empty, its front has
  another line, or a line is already pressed (41 R99, R105; 20 R45). Safe. -/
  | pressNotDue
  /-- Raised by `RELEASE` outside phase PRESS, and so by a write of no byte where no write is due (41 R101; 20 R45).
  Safe. -/
  | releaseNotDue
  /-- Raised by a clock cycle out of reset whose pin differs from the configured
  `CFG_ONOFF_INDEPENDENT`: "given no meaning" (70 R150). Safe. -/
  | configChanged
  /-- Raised by the fetch on bytes that are no instruction (30 R62, 20 R38). Safe. -/
  | undecodable (e : DecodeError)
  deriving DecidableEq, Repr

/-- `DS` with all four sentinels (10 R18). -/
def unknownDs : Decoded := ⟨.invalid, .invalid, .invalid, .invalid⟩

/-- The block after reset (10 R30) under the given parameters. The snapshot, if there is one, replaces the
sentinels (70 R132). -/
def Block.reset (p : Params) : Block where
  acc := ⟨0, 0, 0, 0, 0, 0, 0, 0, 0, 0, 0, 0⟩
  wcnt := 0
  ds := p.restore.getD unknownDs
  q := []
  proc := false
  phase := .idle
  tmr := .idle
  out := 0xFFFF

/-- The machine at its start, its block reset with the given parameters and nothing written yet: `btn_out` is `OUT`
(10 R29), 0xFFFF (10 R30; DEDUCED, log 15). A later reset is `resetBlock`. -/
def State.resetWith (p : Params) (moves : List HostMove) : State :=
  { Block.reset p with port := 0xFFFF, events := [], params := p, inbox := moves }

/-- The machine right after reset: the spec's defaults and nothing presented yet. -/
def State.reset : State := State.resetWith Params.default []

end Sys2Proof.Machine
end

