-- ==== Sys2Proof/Machine/Ops.lean ====
section
/-! DEFINITION. The named operations of 00 R9 on the block inside an operation: the grid, events, raising an error, the write
transaction, the delay, and the steps START, ASSERT and RELEASE of the drain (41 R97, R99, R101). -/

namespace Sys2Proof.Machine

/-! ### The grid of counters -/

/-- `g[r][c]` (00 R9). -/
def gridGet {α : Type} (g : Grid α) : Row → Col → α
  | .r0, .c0 => g.r0c0
  | .r0, .c1 => g.r0c1
  | .r0, .c2 => g.r0c2
  | .r1, .c0 => g.r1c0
  | .r1, .c1 => g.r1c1
  | .r1, .c2 => g.r1c2
  | .r2, .c0 => g.r2c0
  | .r2, .c1 => g.r2c1
  | .r2, .c2 => g.r2c2
  | .r3, .c0 => g.r3c0
  | .r3, .c1 => g.r3c1
  | .r3, .c2 => g.r3c2

/-- The grid that holds `f r c` in cell (r,c). -/
def gridOf {α : Type} (f : Row → Col → α) : Grid α where
  r0c0 := f .r0 .c0
  r0c1 := f .r0 .c1
  r0c2 := f .r0 .c2
  r1c0 := f .r1 .c0
  r1c1 := f .r1 .c1
  r1c2 := f .r1 .c2
  r2c0 := f .r2 .c0
  r2c1 := f .r2 .c1
  r2c2 := f .r2 .c2
  r3c0 := f .r3 .c0
  r3c1 := f .r3 .c1
  r3c2 := f .r3 .c2

/-! ### The configuration -/

/-- `ROW_BIT(r)` (00 R6). -/
def rowBitOf (p : Params) : Row → Fin 8
  | .r0 => p.rowBit.r0
  | .r1 => p.rowBit.r1
  | .r2 => p.rowBit.r2
  | .r3 => p.rowBit.r3

/-- `COL_BIT(c)` (00 R6). -/
def colBitOf (p : Params) : Col → Fin 8
  | .c0 => p.colBit.c0
  | .c1 => p.colBit.c1
  | .c2 => p.colBit.c2

/-- `BTN_BIT(b)` (00 R6, 30 R57). -/
def btnBitOf (p : Params) : Button → Fin 8
  | .off => p.btnBit.off
  | .timer => p.btnBit.timer
  | .speed => p.btnBit.speed
  | .onspeed => p.btnBit.onspeed
  | .mode => p.btnBit.mode
  | .swing => p.btnBit.swing

/-- A delay of `ms` milliseconds in clock cycles, `round(ms/1000 * F_CLK)` and at least 1 (70 R147). A
product that ends in exactly one half rounds as the free value says (log 6). -/
def delayCycles (ms fClk : Nat) : Nat :=
  let whole := ms * fClk / 1000
  let part := ms * fClk % 1000
  max 1 (if part < 500 then whole
         else if part = 500 then (if Config.roundTieUp fClk then whole + 1 else whole)
         else whole + 1)

/-- `PRESS_CYCLES` (00 R6). -/
def pressCycles (p : Params) : Nat := delayCycles Config.tPress p.fClk

/-- `GAP_CYCLES` (00 R6). -/
def gapCycles (p : Params) : Nat := delayCycles Config.tGap p.fClk

/-! ### Events, errors, the write transaction, the delay -/

/-- `emit X` (00 R9): append to the operation's events. -/
def emit (e : Event) (s : Work) : Work := { s with events := s.events ++ [e] }

/-- `raise E` (00 R9), the one way an error is taken: it "never transfers control, never saves state and
never aborts the operation" (60 R117); there is nothing to return from (60 R118). -/
def raise (e : ErrKind) (s : Work) : Work := emit (.log e) s

/-- `OUTW(p)`, the complement of `1 << p` (30 R56). -/
def pressWord (p : Fin 8) : Word16 := ~~~((1 : Word16) <<< p.val)

/-- The release word, the complement of 0 (30 R56). -/
def releaseWord : Word16 := ~~~(0 : Word16)

/-- `MemWrite(BTN, 2, v)` with the environment's answer `wf` (20 R34, 41 R103): `OUT` keeps the value sent
(10 R24) and the port shows it until the next write (20 R47, 70 R147), the event comes whether the write succeeds
or fails, and a failure is only logged. -/
def memWrite (v : Word16) (wf : Bool) (s : Work) : Work :=
  let sent := emit (.wr v) { s with out := v, port := v }
  if wf then raise .wr sent else sent

/-- `arm(T)` (00 R9, 10 R23), the delay in clock cycles. -/
def arm (cycles : Nat) (s : Work) : Work := { s with tmr := .armed cycles }

/-- `TMR <- idle` (41 R100). -/
def disarm (s : Work) : Work := { s with tmr := .idle }

/-- `TMR` is armed, with any remaining time (10 R23). -/
def isArmed : Tmr → Bool
  | .idle => false
  | .armed _ => true

/-! ### The steps of the drain -/

/-- `ASSERT(wf)` of the symbol at the front (41 R99): write its press word, phase PRESS, arm `T_PRESS`. The
front is read, not removed (90 C1). -/
def assertFront (p : Params) (front : Button) (wf : Bool) (s : Work) : Work :=
  arm (pressCycles p) { memWrite (pressWord (btnBitOf p front)) wf s with phase := .press }

/-- `ASSERT(wf)` with its precondition `Q.len >= 1` (41 R99, R102). -/
def assertStep (p : Params) (wf : Bool) (s : Work) : Host.Outcome Work Fault Refusal :=
  match s.q with
  | [] => .fault .assertEmptyQueue
  | front :: _ => .next (assertFront p front wf s)

/-- What `RELEASE` does after the write and the pop (41 R101): a gap while symbols are left, else the end
of the drain. -/
def afterRelease (p : Params) (rest : List Button) (s : Work) : Work :=
  match rest with
  | [] => { s with q := [], phase := .idle, proc := false }
  | _ :: _ => arm (gapCycles p) { s with q := rest, phase := .gap }

/-- `RELEASE(wf)` (41 R101). -/
def releaseStep (p : Params) (wf : Bool) (s : Work) : Host.Outcome Work Fault Refusal :=
  match s.q with
  | [] => .fault .popEmptyQueue
  | _ :: rest => .next (afterRelease p rest (memWrite releaseWord wf s))

/-- `START(n, wf)` (41 R97); an empty list starts nothing (41 R96). -/
def startDrain (p : Params) (n : List Button) (wf : Bool) (s : Work) : Work :=
  match n with
  | [] => s
  | front :: _ => assertFront p front wf { s with q := n, proc := true }

/-! ### The machine around the block -/

/-- Perform an operation of the block in the machine: the operation is given the configuration and sees and
changes the block and its events alone (10 R25, log 1, log 2). -/
def onBlock (op : Params → Work → Host.Outcome Work Fault Refusal) (s : State) :
    Host.Outcome State Fault Refusal :=
  match op s.params s.toWork with
  | .next w => .next { s with toWork := w }
  | .fault f => .fault f
  | .refused r => .refused r

/-! ### Reset -/

/-- Reset (70 R129): every field at the value of 10 R30, whatever the state was. It keeps the
configuration and the host's pending moves (log 11), emits nothing and "writes nothing", so that the port stays "at
whatever the last write set until the host's next write". -/
def resetBlock (s : State) : State := { State.resetWith s.params s.inbox with port := s.port }

end Sys2Proof.Machine
end

