-- ==== Sys2Proof/Machine/Operands.lean ====
section
/-! DEFINITION. What an operation reads from its operand: the rows, columns and cells of a sample (30 R50,
R51; 40 R71), the cyclic distance (41 R87), and the symbols a request asks for (41 R90 to R95). -/

namespace Sys2Proof.Machine

/-! ### The sample -/

/-- Row r is asserted in the sample: its bit reads `ROW_ACTIVE` (30 R50). -/
def rowAsserted (p : Params) (raw : Word16) (r : Row) : Bool :=
  raw.getLsbD (rowBitOf p r).val == p.rowActive

/-- Column c is lit in the sample: its bit reads 0 (30 R50). -/
def colLow (p : Params) (raw : Word16) (c : Col) : Bool :=
  !raw.getLsbD (colBitOf p c).val

/-- `litnow(r,c)` (30 R51). No one-hot assumption is made (90 C4). -/
def litNow (p : Params) (raw : Word16) (r : Row) (c : Col) : Bool :=
  rowAsserted p raw r && colLow p raw c

/-! ### The codes the Sequencer computes with -/

/-- The code of `DS.speed` (30 R52). -/
def speedCode : Speed → BitVec 3
  | .off => 0
  | .low => 1
  | .medium => 2
  | .high => 3
  | .invalid => 7

/-- The code of `DS.osc` (30 R53). -/
def oscCode : Osc → BitVec 2
  | .off => 0
  | .on => 1
  | .invalid => 3

/-- The code of `DS.mode` (30 R54). -/
def modeCode : Mode → BitVec 3
  | .off => 0
  | .normal => 1
  | .nature => 2
  | .sleep => 3
  | .invalid => 7

/-- The code of `DS.timer` (30 R55): a mask, or 31. -/
def timerCode : TimerVal → BitVec 5
  | .mask m => m.setWidth 5
  | .invalid => 31

/-- The code of `PHASE` (10 R22). -/
def phaseCode : Phase → BitVec 2
  | .idle => 0
  | .press => 1
  | .gap => 2

/-- The code of an error event (60 R109). -/
def errCode : ErrKind → Nat
  | .rd => 1
  | .wr => 2

/-- The code of a dropped request (60 R109). -/
def dropCode : Nat := 3

/-- The code of a drop's reason (60 R109, 10 R29). -/
def reasonCode : DropReason → BitVec 1
  | .busy => 0
  | .noState => 1

/-- A queue element is stored as its 3-bit bit position (30 R57). -/
def storedSymbol (p : Params) (b : Button) : BitVec 3 := BitVec.ofNat 3 (btnBitOf p b).val

/-- The duration, in half hours, of a timer mask: the sum of the lit bits' weights (30 R55). -/
def halfHours (m : BitVec 4) : Nat :=
  (if m.getLsbD 0 then 1 else 0) + (if m.getLsbD 1 then 2 else 0) +
  (if m.getLsbD 2 then 4 else 0) + (if m.getLsbD 3 then 8 else 0)

/-- `dist3(cur, tgt)` on mathematical integers (41 R87). -/
def dist3 (cur tgt : Int) : Int :=
  if tgt ≥ cur then tgt - cur else tgt - cur + 3

/-- How often the speed or mode button is pressed, from codes (41 R92, R94). -/
def presses (cur tgt : Nat) : Nat := (dist3 cur tgt).toNat

/-! ### The request -/

/-- `cur_on` (41 R89). -/
def curOn (d : Decoded) : Bool := d.speed != .off

/-- `on_after` (41 R89). -/
def onAfter (d : Decoded) (req : CtrlReq) : Bool := req.power.getD (curOn d)

/-- The power symbol (41 R90, R91). -/
def powerSymbols (p : Params) (d : Decoded) (req : CtrlReq) : List Button :=
  match req.power with
  | none => []
  | some false => if curOn d then [.off] else []
  | some true => if curOn d then [] else if p.onOffIndependent then [.off] else [.onspeed]

/-- The speed symbols (41 R92); the reserved code is as if the field were absent (30 R62 (4)). -/
def speedSymbols (d : Decoded) (req : CtrlReq) : List Button :=
  match req.speed with
  | none => []
  | some .reserved => []
  | some tgt =>
    if onAfter d req then
      List.replicate (presses (speedCode d.speed).toNat (reqSpeedCode tgt).toNat) .speed
    else []

/-- The requested oscillation as a value of `DS.osc` (30 R60: 1 = ON, 0 = OFF). -/
def reqOsc (on : Bool) : Osc := if on then .on else .off

/-- The swing symbol (41 R93), whatever the power state. -/
def swingSymbols (d : Decoded) (req : CtrlReq) : List Button :=
  match req.osc with
  | none => []
  | some on => if reqOsc on ≠ d.osc then [.swing] else []

/-- The mode symbols (41 R94); the "off" preset asks for none. -/
def modeSymbols (d : Decoded) (req : CtrlReq) : List Button :=
  match req.mode with
  | none => []
  | some .off => []
  | some tgt =>
    if onAfter d req then
      List.replicate (presses (modeCode d.mode).toNat (reqModeCode tgt).toNat) .mode
    else []

/-- The whole list of a request, in the order power, speed, swing, mode (41 R95). -/
def requestSymbols (p : Params) (d : Decoded) (req : CtrlReq) : List Button :=
  powerSymbols p d req ++ speedSymbols d req ++ swingSymbols d req ++ modeSymbols d req

/-- A field a request reads is the sentinel (41 R88). -/
def noState (d : Decoded) : Bool := d.speed == .invalid || d.osc == .invalid || d.mode == .invalid

end Sys2Proof.Machine
end

