-- ==== Sys2Proof/Machine/ButtonPort.lean ====
section
/-! DEFINITION. The nine words of the button port (30 R56) as instructions: a press word is the assert step
that writes it (41 R99), the release word is the release step (41 R101) (log 7). -/

namespace Sys2Proof.Machine

/-- The assert of one line (41 R99) as a step of its own. It is one only where the drain stands at it: the
queue is not empty ("Precondition: `Q.len >= 1`"), the line is that of its front, and no line is pressed
("between two press words there is always a release word", 41 R105). -/
def pressLine (p : Params) (line : Fin 8) (wf : Bool) (s : Work) : Host.Outcome Work Fault Refusal :=
  match s.q with
  | [] => .refused .pressNotDue
  | front :: _ =>
    if btnBitOf p front = line ∧ s.phase ≠ .press then .next (assertFront p front wf s)
    else .refused .pressNotDue

/-- The release (41 R101) as a step of its own, the delay of the press being over: only in phase PRESS,
"`TEXP` in phase PRESS". -/
def releaseLine (p : Params) (wf : Bool) (s : Work) : Host.Outcome Work Fault Refusal :=
  if s.phase = .press then releaseStep p wf (disarm s) else .refused .releaseNotDue

/-- `PRESS.b0` (41 R99, 30 R56). -/
def execPressB0 (wf : Bool) (s : State) : Host.Outcome State Fault Refusal :=
  onBlock (fun p w => pressLine p 0 wf w) s

/-- `PRESS.b1` (41 R99, 30 R56). -/
def execPressB1 (wf : Bool) (s : State) : Host.Outcome State Fault Refusal :=
  onBlock (fun p w => pressLine p 1 wf w) s

/-- `PRESS.b2` (41 R99, 30 R56). -/
def execPressB2 (wf : Bool) (s : State) : Host.Outcome State Fault Refusal :=
  onBlock (fun p w => pressLine p 2 wf w) s

/-- `PRESS.b3` (41 R99, 30 R56). -/
def execPressB3 (wf : Bool) (s : State) : Host.Outcome State Fault Refusal :=
  onBlock (fun p w => pressLine p 3 wf w) s

/-- `PRESS.b4` (41 R99, 30 R56). -/
def execPressB4 (wf : Bool) (s : State) : Host.Outcome State Fault Refusal :=
  onBlock (fun p w => pressLine p 4 wf w) s

/-- `PRESS.b5` (41 R99, 30 R56). -/
def execPressB5 (wf : Bool) (s : State) : Host.Outcome State Fault Refusal :=
  onBlock (fun p w => pressLine p 5 wf w) s

/-- `PRESS.b6` (41 R99, 30 R56). -/
def execPressB6 (wf : Bool) (s : State) : Host.Outcome State Fault Refusal :=
  onBlock (fun p w => pressLine p 6 wf w) s

/-- `PRESS.b7` (41 R99, 30 R56). -/
def execPressB7 (wf : Bool) (s : State) : Host.Outcome State Fault Refusal :=
  onBlock (fun p w => pressLine p 7 wf w) s

/-- `RELEASE` (41 R101, 30 R56). -/
def execRelease (wf : Bool) (s : State) : Host.Outcome State Fault Refusal :=
  onBlock (fun p w => releaseLine p wf w) s

end Sys2Proof.Machine
end

