-- ==== Sys2Proof/Machine/Flags.lean ====
section
/-! DEFINITION. The flags a window end computes and consumes (10 R26, R31): the verdict grid `lit`, and the
booleans `changed` and `tchg` (40 R75, R81, R82). -/

namespace Sys2Proof.Machine

/-- `THRESH()` (40 R75): a cell is lit iff its count is greater than 2, unsigned. -/
def thresh (acc : Grid Count) : Grid Bool :=
  gridOf fun r c => decide (Config.thresh < gridGet acc r c)

/-- `changed` (40 R81): speed, oscillation or mode differs from the stored value. -/
def changedFlag (stored decoded : Decoded) : Bool :=
  decoded.speed != stored.speed || decoded.osc != stored.osc || decoded.mode != stored.mode

/-- `tchg` (40 R82): the timer differs from the stored value. -/
def timerFlag (stored decoded : Decoded) : Bool := decoded.timer != stored.timer

end Sys2Proof.Machine
end

