-- ==== Sys2Proof/Machine/Decoder.lean ====
section
/-! DEFINITION. The State Decoder (40_decoder.md): the steps of a poll and of a window end, and the
meanings of `POLL.OK` and `POLL.FAIL`. -/

namespace Sys2Proof.Machine

/-- `ACCUM` (40 R72). -/
def accum (p : Params) (raw : Word16) (acc : Grid Count) : Grid Count :=
  gridOf fun r c => if litNow p raw r c then gridGet acc r c + 1 else gridGet acc r c

/-- `CLEAR()` (40 R76). -/
def clearWindow (s : Work) : Work := { s with acc := gridOf fun _ _ => 0, wcnt := 0 }

/-- `DECODE_SPEED(lit)` (40 R77): High, then Medium overrides, then Low overrides. -/
def decodeSpeed (lit : Grid Bool) : Speed :=
  if gridGet lit .r2 .c1 then .low
  else if gridGet lit .r1 .c1 then .medium
  else if gridGet lit .r0 .c1 then .high
  else .off

/-- `DECODE_OSC(lit)` (40 R78). -/
def decodeOsc (lit : Grid Bool) : Osc := if gridGet lit .r0 .c2 then .on else .off

/-- The verdict of a preset mode's cell (30 R58). -/
def modeLit (lit : Grid Bool) : ModeCell → Bool
  | .normal => gridGet lit .r3 .c2
  | .nature => gridGet lit .r3 .c1
  | .sleep => gridGet lit .r2 .c2

/-- The value of `DS.mode` a preset mode's cell names. -/
def modeOfCell : ModeCell → Mode
  | .normal => .normal
  | .nature => .nature
  | .sleep => .sleep

/-- `DECODE_MODE(lit)` (40 R79), the cells in the order `MODE_PRIORITY`, the last lit one winning. -/
def decodeMode (order : List ModeCell) (lit : Grid Bool) : Mode :=
  order.foldl (fun m cell => if modeLit lit cell then modeOfCell cell else m) .off

/-- `DECODE_TIMER(lit)` (40 R80): bit 0 is cell (3,0), bit 3 is cell (0,0). -/
def decodeTimer (lit : Grid Bool) : BitVec 4 :=
  BitVec.ofBool (gridGet lit .r0 .c0) ++ BitVec.ofBool (gridGet lit .r1 .c0) ++
  BitVec.ofBool (gridGet lit .r2 .c0) ++ BitVec.ofBool (gridGet lit .r3 .c0)

/-- The four decodes of a window (40 R74, step c). -/
def decodeWindow (p : Params) (lit : Grid Bool) : Decoded where
  speed := decodeSpeed lit
  osc := decodeOsc lit
  mode := decodeMode p.modePriority lit
  timer := .mask (decodeTimer lit)

/-- `NOTIFY_STEP` (40 R83): the notification first, then the timer text, with the values now stored. -/
def notifyStep (changed tchg : Bool) (s : Work) : Work :=
  let told := if changed then emit (.notify s.ds.speed s.ds.osc s.ds.mode) s else s
  if tchg then emit (.timerText s.ds.timer) told else told

/-- `FINALIZE()` (40 R74). After the comparisons the stored fields equal the decoded ones "in every case"
(40 R81, R82). -/
def finalize (p : Params) (s : Work) : Work :=
  let d := decodeWindow p (thresh s.acc)
  notifyStep (changedFlag s.ds d) (timerFlag s.ds d) { clearWindow s with ds := d }

/-- `ACCUM` and the advance of the window counter (40 R72, R73). -/
def countSample (p : Params) (raw : Word16) (s : Work) : Work :=
  { s with acc := accum p raw s.acc, wcnt := s.wcnt + 1 }

/-- The poll of a sample (40 R70): nothing while `PROC` is true (40 R68). -/
def pollSample (p : Params) (raw : Word16) (s : Work) : Work :=
  if s.proc then s
  else
    let counted := countSample p raw s
    if counted.wcnt = Config.window then finalize p counted else counted

/-- The poll whose read failed (40 R69): logged, unless suspended, and nothing else. -/
def pollFailed (s : Work) : Work := if s.proc then s else raise .rd s

/-- `POLL.OK raw` (40 R70). -/
def execPollOk (raw : Word16) (s : State) : Host.Outcome State Fault Refusal :=
  onBlock (fun p w => .next (pollSample p raw w)) s

/-- `POLL.FAIL` (40 R69). -/
def execPollFail (s : State) : Host.Outcome State Fault Refusal :=
  onBlock (fun _ w => .next (pollFailed w)) s

end Sys2Proof.Machine
end

