-- ==== Sys2Proof/Machine/SampleCells.lean ====
section
/-! DEFINITION. The twelve sample patterns (30 R51) as instructions: a sample on the read port that shows the
pattern is consumed whole by the poll (20 R33, 40 R70), which counts the pattern's cell and every other cell
the sample lights (40 R72) (log 4). -/

namespace Sys2Proof.Machine

/-- `LIT.r0c0` (30 R51, 40 R72). -/
def execLitR0C0 (raw : Word16) (s : State) : Host.Outcome State Fault Refusal :=
  onBlock (fun p w => .next (pollSample p raw w)) s

/-- `LIT.r0c1` (30 R51, 40 R72). -/
def execLitR0C1 (raw : Word16) (s : State) : Host.Outcome State Fault Refusal :=
  onBlock (fun p w => .next (pollSample p raw w)) s

/-- `LIT.r0c2` (30 R51, 40 R72). -/
def execLitR0C2 (raw : Word16) (s : State) : Host.Outcome State Fault Refusal :=
  onBlock (fun p w => .next (pollSample p raw w)) s

/-- `LIT.r1c0` (30 R51, 40 R72). -/
def execLitR1C0 (raw : Word16) (s : State) : Host.Outcome State Fault Refusal :=
  onBlock (fun p w => .next (pollSample p raw w)) s

/-- `LIT.r1c1` (30 R51, 40 R72). -/
def execLitR1C1 (raw : Word16) (s : State) : Host.Outcome State Fault Refusal :=
  onBlock (fun p w => .next (pollSample p raw w)) s

/-- `LIT.r1c2` (30 R51, 40 R72). -/
def execLitR1C2 (raw : Word16) (s : State) : Host.Outcome State Fault Refusal :=
  onBlock (fun p w => .next (pollSample p raw w)) s

/-- `LIT.r2c0` (30 R51, 40 R72). -/
def execLitR2C0 (raw : Word16) (s : State) : Host.Outcome State Fault Refusal :=
  onBlock (fun p w => .next (pollSample p raw w)) s

/-- `LIT.r2c1` (30 R51, 40 R72). -/
def execLitR2C1 (raw : Word16) (s : State) : Host.Outcome State Fault Refusal :=
  onBlock (fun p w => .next (pollSample p raw w)) s

/-- `LIT.r2c2` (30 R51, 40 R72). -/
def execLitR2C2 (raw : Word16) (s : State) : Host.Outcome State Fault Refusal :=
  onBlock (fun p w => .next (pollSample p raw w)) s

/-- `LIT.r3c0` (30 R51, 40 R72). -/
def execLitR3C0 (raw : Word16) (s : State) : Host.Outcome State Fault Refusal :=
  onBlock (fun p w => .next (pollSample p raw w)) s

/-- `LIT.r3c1` (30 R51, 40 R72). -/
def execLitR3C1 (raw : Word16) (s : State) : Host.Outcome State Fault Refusal :=
  onBlock (fun p w => .next (pollSample p raw w)) s

/-- `LIT.r3c2` (30 R51, 40 R72). -/
def execLitR3C2 (raw : Word16) (s : State) : Host.Outcome State Fault Refusal :=
  onBlock (fun p w => .next (pollSample p raw w)) s

end Sys2Proof.Machine
end

