-- ==== Sys2Proof/Machine/Sequencer.lean ====
section
/-! DEFINITION. The Command Sequencer (41_sequencer.md): the meanings of `CTRL`, `TADV` and `TEXP`. -/

namespace Sys2Proof.Machine

/-- `CTRL req` (41 R95): dropped while processing (R86) and before the first window (R88); an empty list
changes nothing (R96). -/
def control (p : Params) (wf : Bool) (req : CtrlReq) (s : Work) : Work :=
  if s.proc then emit (.dropped .busy) s
  else if noState s.ds then emit (.dropped .noState) s
  else startDrain p (requestSymbols p s.ds req) wf s

/-- `TADV` (41 R98): dropped while processing, else one `TIMER` press. -/
def advanceTimer (p : Params) (wf : Bool) (s : Work) : Work :=
  if s.proc then emit (.dropped .busy) s else startDrain p [.timer] wf s

/-- `TEXP` once the delay has elapsed (41 R100): the phase at entry decides. In phase IDLE, which an armed
delay excludes (10 R28 (2)), neither branch of the pseudocode runs (log 10). -/
def delayElapsed (p : Params) (wf : Bool) (s : Work) : Host.Outcome Work Fault Refusal :=
  match s.phase with
  | .press => releaseStep p wf (disarm s)
  | .gap => assertStep p wf (disarm s)
  | .idle => .next (disarm s)

/-- `TEXP` (41 R100): "A `TEXP` with `TMR` idle is not a step of the machine". -/
def delayExpiry (p : Params) (wf : Bool) (s : Work) : Host.Outcome Work Fault Refusal :=
  if isArmed s.tmr then delayElapsed p wf s else .refused .delayNotArmed

/-- `CTRL` (41 R95). -/
def execCtrl (wf : Bool) (req : CtrlReq) (s : State) : Host.Outcome State Fault Refusal :=
  onBlock (fun p w => .next (control p wf req w)) s

/-- `TADV` (41 R98). -/
def execTadv (wf : Bool) (s : State) : Host.Outcome State Fault Refusal :=
  onBlock (fun p w => .next (advanceTimer p wf w)) s

/-- `TEXP` (41 R100). -/
def execTexp (wf : Bool) (s : State) : Host.Outcome State Fault Refusal :=
  onBlock (fun p w => delayExpiry p wf w) s

end Sys2Proof.Machine
end

