-- ==== Sys2Proof/Machine/Dispatch.lean ====
section
/-! DEFINITION. One arm per instruction. -/

namespace Sys2Proof.Machine

def exec (i : Instr) (s : State) : Host.Outcome State Fault Refusal :=
  match i with
  | .pollOk raw => Sys2Proof.Machine.execPollOk raw s
  | .pollFail => Sys2Proof.Machine.execPollFail s
  | .ctrl wf req => Sys2Proof.Machine.execCtrl wf req s
  | .tadv wf => Sys2Proof.Machine.execTadv wf s
  | .texp wf => Sys2Proof.Machine.execTexp wf s
  | .pressB0 wf => Sys2Proof.Machine.execPressB0 wf s
  | .pressB1 wf => Sys2Proof.Machine.execPressB1 wf s
  | .pressB2 wf => Sys2Proof.Machine.execPressB2 wf s
  | .pressB3 wf => Sys2Proof.Machine.execPressB3 wf s
  | .pressB4 wf => Sys2Proof.Machine.execPressB4 wf s
  | .pressB5 wf => Sys2Proof.Machine.execPressB5 wf s
  | .pressB6 wf => Sys2Proof.Machine.execPressB6 wf s
  | .pressB7 wf => Sys2Proof.Machine.execPressB7 wf s
  | .release wf => Sys2Proof.Machine.execRelease wf s
  | .litR0C0 raw => Sys2Proof.Machine.execLitR0C0 raw s
  | .litR0C1 raw => Sys2Proof.Machine.execLitR0C1 raw s
  | .litR0C2 raw => Sys2Proof.Machine.execLitR0C2 raw s
  | .litR1C0 raw => Sys2Proof.Machine.execLitR1C0 raw s
  | .litR1C1 raw => Sys2Proof.Machine.execLitR1C1 raw s
  | .litR1C2 raw => Sys2Proof.Machine.execLitR1C2 raw s
  | .litR2C0 raw => Sys2Proof.Machine.execLitR2C0 raw s
  | .litR2C1 raw => Sys2Proof.Machine.execLitR2C1 raw s
  | .litR2C2 raw => Sys2Proof.Machine.execLitR2C2 raw s
  | .litR3C0 raw => Sys2Proof.Machine.execLitR3C0 raw s
  | .litR3C1 raw => Sys2Proof.Machine.execLitR3C1 raw s
  | .litR3C2 raw => Sys2Proof.Machine.execLitR3C2 raw s

end Sys2Proof.Machine
end

