-- ==== Sys2Proof/Machine/Clock.lean ====
section
/-! DEFINITION. The pin-level binding (10 R29; 20 R47; 30 R65; 70 R147, R148): one clock cycle on the same
state, and the output pins of that cycle. -/

namespace Sys2Proof.Machine

/-- The delay expires in this cycle: `DLY` goes from 1 to 0 (70 R147). An armed delay of 0, which arming
never leaves, expires at once. -/
def delayDue : Tmr → Bool
  | .idle => false
  | .armed left => decide (left ≤ 1)

/-- `DLY` one cycle on: "while `DLY > 0` it decrements every cycle" (70 R147). -/
def tickDelay : Tmr → Tmr
  | .idle => .idle
  | .armed left => .armed (left - 1)

/-- The requests and the poll of a cycle, in the order `CTRL; TADV; POLL.*` (70 R148), each on the state left
by the one before. -/
def requestsOf (p : Params) (pins : Pins) (s : Work) : Work :=
  let s1 := if pins.ctrlValid then control p pins.wrFail (decodeCtrlw pins.ctrlReq) s else s
  let s2 := if pins.tadvValid then advanceTimer p pins.wrFail s1 else s1
  if pins.pollValid then (if pins.pollOk then pollSample p pins.pollData s2 else pollFailed s2) else s2

/-- A cycle of the block out of reset (70 R147, R148): the requests and the poll, and last `TEXP` if the delay
expires; a delay armed before the cycle and not expiring counts down. -/
def runCycle (p : Params) (pins : Pins) (s : Work) : Host.Outcome Work Fault Refusal :=
  let t := requestsOf p pins s
  if delayDue s.tmr then delayExpiry p pins.wrFail t
  else if isArmed s.tmr then .next { t with tmr := tickDelay t.tmr }
  else .next t

/-- One clock cycle. In reset every strobe is ignored (70 R129) and the static configuration pin is sampled
(10 R25, 30 R65); out of reset that pin must not change (70 R133; log 11). -/
def clockCycle (p : Pins) (s : State) : Host.Outcome State Fault Refusal :=
  if p.rst then .next (resetBlock { s with params := { s.params with onOffIndependent := p.cfgOnOff } })
  else if p.cfgOnOff ≠ s.params.onOffIndependent then .refused .configChanged
  else onBlock (fun params w => runCycle params p w) s

/-- The output pins (10 R29). -/
structure PinOut where
  stSpeed      : BitVec 3
  stOsc        : BitVec 2
  stMode       : BitVec 3
  stTimer      : BitVec 5
  processing   : Bool
  btnOut       : Word16
  changed      : Bool
  timerChanged : Bool
  wrValid      : Bool
  errRd        : Bool
  errWr        : Bool
  reqDropped   : Bool
  /-- absent where there is no drop: "meaningful only in that cycle" -/
  dropReason   : Option (BitVec 1)
  deriving DecidableEq, Repr

/-- An event of the cycle satisfies `f`. -/
def strobe (f : Event → Bool) (s : State) : Bool := s.events.any f

/-- `wr_valid`: a write is issued in this cycle (20 R47). -/
def wrValidPin (s : State) : Bool := strobe (fun e => match e with | .wr _ => true | _ => false) s

/-- The reason of a drop among the cycle's events. Two drops of one cycle have the same reason (70 R148). -/
def dropReasonPin : List Event → Option (BitVec 1)
  | [] => none
  | .dropped why :: _ => some (reasonCode why)
  | _ :: rest => dropReasonPin rest

/-- The output pins of a step from `before` to `after`: the outputs show the new state from the next cycle, and the
strobes belong to the cycle of the operation. `btn_out` is what stands on the write port: in the cycle of a write
already the value written, and that value "until the next write" (70 R147, 20 R47, 90 C11), also where a reset has
set `OUT` without a write (log 15). -/
def pinOut (before after : State) : PinOut where
  stSpeed := speedCode before.ds.speed
  stOsc := oscCode before.ds.osc
  stMode := modeCode before.ds.mode
  stTimer := timerCode before.ds.timer
  processing := before.proc
  btnOut := after.port
  changed := strobe (fun e => match e with | .notify _ _ _ => true | _ => false) after
  timerChanged := strobe (fun e => match e with | .timerText _ => true | _ => false) after
  wrValid := wrValidPin after
  errRd := strobe (fun e => e == .log .rd) after
  errWr := strobe (fun e => e == .log .wr) after
  reqDropped := strobe (fun e => match e with | .dropped _ => true | _ => false) after
  dropReason := dropReasonPin after.events

end Sys2Proof.Machine
end

