-- ==== Sys2Proof/Machine/Fetch.lean ====
section
/-! DEFINITION. What the next step does: the oldest of the host's moves, decoded (log 1). -/

namespace Sys2Proof.Machine

/-- What the fetch found, with the state the step goes on from. -/
inductive Fetched where
  | idle (s : State)
  | run (i : Instr) (s : State)
  | clock (p : Pins) (s : State)
  | reset (s : State)
  | undecodable (e : DecodeError)
  deriving DecidableEq, Repr

/-- The state in which a step begins: the oldest move taken, no event emitted yet ("no error is sticky",
60 R118). -/
def beginStep (moves : List HostMove) (s : State) : State := { s with inbox := moves, events := [] }

/-- The write the drain issues next, as a failed one: the release in phase PRESS, else the press of the front's line
(41 R99, R101). With nothing queued none is due ("No write is issued outside a drain", 20 R45), and the answer is a
release, which is then refused. -/
def dueWrite (p : Params) (s : Block) : Instr :=
  match s.phase, s.q with
  | .press, _ => .release true
  | _, front :: _ => pressInstr (btnBitOf p front) true
  | _, [] => .release true

/-- What a transfer says in a state: what its bytes say, but a write of which no byte was moved is the failed write
of the word due (20 R38, R42; log 9). -/
def decodeAt (s : State) : Transfer → Except DecodeError Instr
  | ⟨.btn, []⟩ => .ok (dueWrite s.params s.toBlock)
  | t => decode t

/-- Take the oldest move. With none pending the block "simply holds its state" (60 R127). -/
def fetch (s : State) : Fetched :=
  match s.inbox with
  | [] => .idle (beginStep [] s)
  | .present t :: rest =>
    match decodeAt s t with
    | .ok i => .run i (beginStep rest s)
    | .error e => .undecodable e
  | .clock p :: rest => .clock p (beginStep rest s)
  | .reset :: rest => .reset (beginStep rest s)

end Sys2Proof.Machine
end

