-- ==== Sys2Proof/Machine/Step.lean ====
section
/-! DEFINITION. One step of the machine, and how a table word is placed before it. -/

namespace Sys2Proof.Machine

/-- One step: one host move, or none, performed whole (20 R39, R43). -/
def step (s : State) : Host.Outcome State Fault Refusal :=
  match fetch s with
  | .idle t => .next t
  | .run i t => exec i t
  | .clock p t => clockCycle p t
  | .reset t => .next (resetBlock t)
  | .undecodable e => .refused (.undecodable e)

/-- A table word presented as the host's next move (log 1). -/
def State.withFetchWord (s : State) (nbits w : Nat) : State :=
  { s with inbox := .present (tableTransfer nbits w) :: s.inbox }

end Sys2Proof.Machine
end

