-- ==== Sys2Proof/Machine/Text.lean ====
section
/-! DEFINITION. The operation lines of a trace (30 R63) and the pseudo-operations (30 R64): from characters to a
line, from a line to an operation, from a pseudo-operation to a list of the host's moves. -/

namespace Sys2Proof.Machine

/-- One line of a trace (30 R63). The operand of `POLL` is its hex digits, most significant first. -/
inductive Line where
  | poll (digits : List (BitVec 4))
  | pollf
  | ctrl (req : CtrlReq) (wf : Bool)
  | tadv (wf : Bool)
  | texp (wf : Bool)
  deriving DecidableEq, Repr

/-- The sample of a `POLL` operand: two digits give byte 0 and leave byte 1 at 0x00, four give
`raw[15:0]` (30 R63); no other count is one. -/
def sampleOfDigits : List (BitVec 4) → Option Word16
  | [d1, d0] => some ((0 : Byte) ++ d1 ++ d0)
  | [d3, d2, d1, d0] => some (d3 ++ d2 ++ d1 ++ d0)
  | _ => none

/-- The operation a line writes (30 R63). -/
def assemble : Line → Option Instr
  | .poll digits => (sampleOfDigits digits).map .pollOk
  | .pollf => some .pollFail
  | .ctrl req wf => some (.ctrl wf req)
  | .tadv wf => some (.tadv wf)
  | .texp wf => some (.texp wf)

/-- An operation presented by the host. -/
def presented (i : Instr) : HostMove := .present (encode i)

/-- `POLLN k, v` (30 R64). -/
def polln (k : Nat) (raw : Word16) : List HostMove := List.replicate k (presented (.pollOk raw))

/-- How many samples the runs of a `WINDOW` hold. -/
def runLength : List (Word16 × Nat) → Nat
  | [] => 0
  | (_, k) :: rest => k + runLength rest

/-- The runs of a `WINDOW`, each a `POLLN`. -/
def runMoves : List (Word16 × Nat) → List HostMove
  | [] => []
  | (raw, k) :: rest => polln k raw ++ runMoves rest

/-- `WINDOW v1*k1, v2*k2, ...` (30 R64): the counts add up to 32. -/
def windowMoves (runs : List (Word16 × Nat)) : Option (List HostMove) :=
  if runLength runs = 32 then some (runMoves runs) else none

/-- `DRAIN n` (30 R64): `TEXP` repeated `2n - 1` times. Of no symbol there is no drain, and `2n - 1` is no count:
`DRAIN 0` has no expansion (DESIGN CHOICE, log 8). -/
def drainMoves (n : Nat) : Option (List HostMove) :=
  if n = 0 then none else some (List.replicate (2 * n - 1) (presented (.texp false)))

/-- `RESET` (30 R64): "not an operation", the reset of 70 R129. -/
def resetMoves : List HostMove := [.reset]

/-! ### The characters of a line. What 30 R63 leaves open of them is log 8. -/

/-- The parts of a text between the separators. -/
def splitAtChar (sep : Char) : List Char → List (List Char)
  | [] => [[]]
  | c :: cs =>
    if c = sep then [] :: splitAtChar sep cs
    else
      match splitAtChar sep cs with
      | [] => [[c]]
      | part :: parts => (c :: part) :: parts

/-- The words of a line between blanks, in lower case: "Keywords are case-insensitive" (30 R63). DESIGN CHOICE
(log 8): so is all the rest of a line, of whose letter case the rule says nothing: hex digits, the prefix `0x`, the
words `field=value` of `CTRL` as far as they are no keywords, and `!wf`. -/
def lineWords (text : List Char) : List (List Char) :=
  (splitAtChar ' ' (text.map Char.toLower)).filter fun w => w ≠ []

/-- A hex digit; its letter is in lower case by `lineWords`. -/
def hexDigit (c : Char) : Option (BitVec 4) :=
  if 48 ≤ c.toNat ∧ c.toNat ≤ 57 then some (BitVec.ofNat 4 (c.toNat - 48))
  else if 97 ≤ c.toNat ∧ c.toNat ≤ 102 then some (BitVec.ofNat 4 (c.toNat - 87))
  else none

/-- Hex digits, most significant first. -/
def hexDigits : List Char → Option (List (BitVec 4))
  | [] => some []
  | c :: cs =>
    match hexDigit c, hexDigits cs with
    | some d, some ds => some (d :: ds)
    | _, _ => none

/-- The operand of `POLL`, with or without `0x` (DESIGN CHOICE, log 8). -/
def operandDigits : List Char → Option (List (BitVec 4))
  | '0' :: 'x' :: digits => hexDigits digits
  | digits => hexDigits digits

/-- A decimal number read on from `n`. -/
def decimalFrom (n : Nat) : List Char → Option Nat
  | [] => some n
  | c :: cs =>
    if 48 ≤ c.toNat ∧ c.toNat ≤ 57 then decimalFrom (10 * n + (c.toNat - 48)) cs else none

/-- A count of a pseudo-operation. -/
def decimal : List Char → Option Nat
  | [] => none
  | c :: cs => decimalFrom 0 (c :: cs)

/-- `[!wf]` at the end of a line. -/
def writeAnswer : List (List Char) → Option Bool
  | [] => some false
  | [w] => if w = "!wf".toList then some true else none
  | _ => none

/-- One optional field of `CTRL`: the value its word names and the words left; absent if the next word is no
word of it. -/
def optionalField {α : Type} (values : List (List Char × α)) :
    List (List Char) → Option α × List (List Char)
  | [] => (none, [])
  | w :: rest =>
    match values.lookup w with
    | some v => (some v, rest)
    | none => (none, w :: rest)

/-- `CTRL [power=..] [speed=..] [osc=..] [mode=..] [!wf]` (30 R63). -/
def parseCtrl (words : List (List Char)) : Option Line :=
  let power := optionalField [("power=on".toList, true), ("power=off".toList, false)] words
  let speed := optionalField [("speed=low".toList, ReqSpeed.low), ("speed=medium".toList, .medium),
    ("speed=high".toList, .high)] power.2
  let osc := optionalField [("osc=on".toList, true), ("osc=off".toList, false)] speed.2
  let mode := optionalField [("mode=off".toList, ReqMode.off), ("mode=normal".toList, .normal),
    ("mode=nature".toList, .nature), ("mode=sleep".toList, .sleep)] osc.2
  (writeAnswer mode.2).map (.ctrl ⟨power.1, speed.1, osc.1, mode.1⟩)

/-- One operation line (30 R63). -/
def parseLine (text : List Char) : Option Line :=
  match lineWords text with
  | [] => none
  | keyword :: rest =>
    if keyword = "poll".toList then
      match rest with
      | [operand] => (operandDigits operand).map .poll
      | _ => none
    else if keyword = "pollf".toList then (if rest = [] then some .pollf else none)
    else if keyword = "ctrl".toList then parseCtrl rest
    else if keyword = "tadv".toList then (writeAnswer rest).map .tadv
    else if keyword = "texp".toList then (writeAnswer rest).map .texp
    else none

/-- The operation a line of characters writes. -/
def assembleText (text : List Char) : Option Instr := (parseLine text).bind assemble

/-- The sample of an operand (30 R63). -/
def parseSample (operand : List Char) : Option Word16 := (operandDigits operand).bind sampleOfDigits

/-- The runs `v*k` of a `WINDOW` (30 R64). -/
def parseRuns : List (List Char) → Option (List (Word16 × Nat))
  | [] => some []
  | run :: runs =>
    match splitAtChar '*' run with
    | [v, k] =>
      match parseSample v, decimal k, parseRuns runs with
      | some raw, some n, some others => some ((raw, n) :: others)
      | _, _, _ => none
    | _ => none

/-- A text with every comma standing apart as a word of its own. -/
def apartCommas : List Char → List Char
  | [] => []
  | c :: cs => if c = ',' then ' ' :: ',' :: ' ' :: apartCommas cs else c :: apartCommas cs

/-- The operands of a pseudo-operation: one word each, a comma between two, with or without blanks around the
comma and with none inside an operand (DESIGN CHOICE, log 8: 30 R64 is silent on blanks). -/
def operandList : List (List Char) → Option (List (List Char))
  | [] => none
  | [w] => if w = [','] then none else some [w]
  | w :: comma :: rest =>
    if w ≠ [','] ∧ comma = [','] then (operandList rest).map fun ws => w :: ws else none

/-- What a line presents to the block: a pseudo-operation its expansion (30 R64), an operation itself. -/
def movesOfText (text : List Char) : Option (List HostMove) :=
  match lineWords (apartCommas text) with
  | [] => none
  | keyword :: rest =>
    if keyword = "polln".toList then
      match operandList rest with
      | some [k, v] =>
        match decimal k, parseSample v with
        | some n, some raw => some (polln n raw)
        | _, _ => none
      | _ => none
    else if keyword = "window".toList then ((operandList rest).bind parseRuns).bind windowMoves
    else if keyword = "drain".toList then
      match rest with
      | [n] => (decimal n).bind drainMoves
      | _ => none
    else if keyword = "reset".toList then (if rest = [] then some resetMoves else none)
    else (assembleText text).map fun i => [presented i]

end Sys2Proof.Machine
end

