-- ==== Sys2Proof/Safety.lean ====
section
/-! DEFINITION. What the claims about whole runs speak of: the invariant of 10 R28, item by item, and
quiescence (70 R149). -/

namespace Sys2Proof.Machine

/-- 10 R28 (1): `PROC = (PHASE != IDLE)`. -/
abbrev ProcIsBusy (s : State) : Prop := s.proc = decide (s.phase ≠ .idle)

/-- 10 R28 (2) and (8): what phase IDLE implies. -/
abbrev IdleIsQuiet (s : State) : Prop := s.phase = .idle → s.q = [] ∧ s.tmr = .idle ∧ s.out = 0xFFFF

/-- 10 R28 (3): what phase PRESS implies. -/
abbrev PressHoldsLine (s : State) : Prop :=
  s.phase = .press → isArmed s.tmr ∧ ∃ b rest, s.q = b :: rest ∧ s.out = pressWord (btnBitOf s.params b)

/-- 10 R28 (4): what phase GAP implies. -/
abbrev GapIsReleased (s : State) : Prop :=
  s.phase = .gap → s.q ≠ [] ∧ isArmed s.tmr ∧ s.out = 0xFFFF

/-- 10 R28 (5): `Q.len <= 8`. -/
abbrev QueueBounded (s : State) : Prop := s.q.length ≤ Config.qDepth

/-- 10 R28 (6): `WCNT <= 31`, and no counter passes it. -/
abbrev CountsBounded (s : State) : Prop :=
  s.wcnt ≤ 31 ∧ ∀ r c, gridGet s.acc r c ≤ s.wcnt

/-- All four fields are the sentinel. -/
abbrev allUnknown (d : Decoded) : Prop := d = unknownDs

/-- 10 R28 (7): the sentinels stand together or not at all. -/
abbrev SentinelsTogether (s : State) : Prop := allUnknown s.ds ∨ Decoded.real s.ds

/-- What the write port shows: `OUT` while a drain runs, and always the release word or a button's press word, "the
only values the block ever writes" (20 R34); a reset can leave a press word there (70 R129). -/
abbrev PortHoldsAWord (s : State) : Prop :=
  (s.phase ≠ .idle → s.port = s.out) ∧
  (s.port = 0xFFFF ∨ ∃ b, s.port = pressWord (btnBitOf s.params b))

/-- The invariant of 10 R28, and that of the write port, with the parameters legal (00 R6). It says nothing of `inbox` or `events`. -/
structure Inv (s : State) : Prop where
  legal : s.params.Legal
  procIsBusy : ProcIsBusy s
  idleIsQuiet : IdleIsQuiet s
  pressHoldsLine : PressHoldsLine s
  gapIsReleased : GapIsReleased s
  queueBounded : QueueBounded s
  countsBounded : CountsBounded s
  sentinelsTogether : SentinelsTogether s
  portHoldsAWord : PortHoldsAWord s

/-- Quiescent (70 R149 (1)): `PROC` false. -/
abbrev Quiescent (s : State) : Prop := s.proc = false

/-- Instructions performed one after another (20 R43). -/
def execAll : List Instr → State → Host.Outcome State Fault Refusal
  | [], s => .next s
  | i :: rest, s =>
    match exec i s with
    | .next t => execAll rest t
    | .fault f => .fault f
    | .refused r => .refused r

/-- The values of the write transactions among some events, in order. -/
def writesOf : List Event → List Word16
  | [] => []
  | .wr v :: rest => v :: writesOf rest
  | _ :: rest => writesOf rest

/-- Clock cycles one after another, each with its own pins (70 R147). -/
def clockAll : List Pins → State → Host.Outcome State Fault Refusal
  | [], s => .next s
  | p :: rest, s =>
    match clockCycle p s with
    | .next t => clockAll rest t
    | .fault f => .fault f
    | .refused r => .refused r

/-- The pins of a cycle out of reset, the static pin as configured (70 R133). -/
abbrev RunningPins (p : Pins) (s : State) : Prop :=
  p.rst = false ∧ p.cfgOnOff = s.params.onOffIndependent

/-- The poll of a read's answer: a sample, or none where the read failed (20 R33). -/
def pollOf : Option Word16 → Instr
  | some raw => .pollOk raw
  | none => .pollFail

/-- The samples of the reads that completed (20 R42). -/
def goodSamples : List (Option Word16) → List Word16
  | [] => []
  | some raw :: rest => raw :: goodSamples rest
  | none :: rest => goodSamples rest

/-- The instructions that are samples on the read port (30 R66). -/
def isPattern : Instr → Bool
  | .litR0C0 _ => true
  | .litR0C1 _ => true
  | .litR0C2 _ => true
  | .litR1C0 _ => true
  | .litR1C1 _ => true
  | .litR1C2 _ => true
  | .litR2C0 _ => true
  | .litR2C1 _ => true
  | .litR2C2 _ => true
  | .litR3C0 _ => true
  | .litR3C1 _ => true
  | .litR3C2 _ => true
  | .pollOk _ => false
  | .pollFail => false
  | .ctrl _ _ => false
  | .tadv _ => false
  | .texp _ => false
  | .pressB0 _ => false
  | .pressB1 _ => false
  | .pressB2 _ => false
  | .pressB3 _ => false
  | .pressB4 _ => false
  | .pressB5 _ => false
  | .pressB6 _ => false
  | .pressB7 _ => false
  | .release _ => false

/-- The Decoder's instructions: the polls and the sample patterns (40_decoder.md). -/
def isDecoderInstr (i : Instr) : Prop := i = .pollFail ∨ (∃ raw, i = .pollOk raw) ∨ isPattern i = true

/-- The Sequencer's instructions: all others (41_sequencer.md). -/
def isSequencerInstr (i : Instr) : Prop := ¬ isDecoderInstr i

/-- The operations of one clock cycle out of reset, in the order of 70 R148: `CTRL; TADV; POLL.*; TEXP`. -/
def cycleInstrs (p : Pins) (due : Bool) : List Instr :=
  (if p.ctrlValid then [.ctrl p.wrFail (decodeCtrlw p.ctrlReq)] else []) ++
  (if p.tadvValid then [.tadv p.wrFail] else []) ++
  (if p.pollValid then [if p.pollOk then .pollOk p.pollData else .pollFail] else []) ++
  (if due then [.texp p.wrFail] else [])

end Sys2Proof.Machine
end

