-- ==== Sys2Proof/Certificates/Slice0/Obligations.lean ====
section
/-! DEFINITION. The statements for the provers, from the numbered rules of spec/. -/

open Sys2Proof Sys2Proof.Machine

/-! ### Encodings -/

/-- Words the spec writes out (30 R63, R56, R51) decode to the instruction they stand for. The operation
codes are the spec's decision D29; on which port a 16-bit word stands is the model's choice (log 4). -/
def Obligations.WrittenWordsDecode : Prop :=
  decodeTableWord 24 0x00AB2A = some (.pollOk 0xAB2A) ∧
  decodeTableWord 24 0x200000 = some .pollFail ∧
  decodeTableWord 24 0x40001C = some (.ctrl false ⟨none, some .high, none, none⟩) ∧
  decodeTableWord 24 0x40039D = some (.ctrl false ⟨some false, some .high, none, some .sleep⟩) ∧
  decodeTableWord 24 0x400020 = some (.ctrl false ⟨none, none, some false, none⟩) ∧
  decodeTableWord 24 0x600000 = some (.tadv false) ∧
  decodeTableWord 24 0x900000 = some (.texp true) ∧
  decodeTableWord 16 0xFFEF = some (.pressB4 false) ∧
  decodeTableWord 16 0xFFFF = some (.release false) ∧
  decodeTableWord 16 0x002A = some (.litR1C1 0x2A)

/-- Decoding what the encoder writes gives the instruction back, for every operation and every output word at
every value of its operands (formats OPW and OUTW, 30 R56, R59, R60; the spec's decision D29, the bytes of a
transfer by log 3). -/
def Obligations.OperationsAndOutputWordsRoundTrip : Prop :=
  ∀ i : Instr, isPattern i = false → decode (encode i) = .ok i

/-- A sample that shows a pattern is read as a pattern it shows, with the whole sample kept; as exactly that
pattern when it shows no other ("not mutually exclusive", 30 R66; which of several is the model's choice, log 4,
and not stated here). -/
def Obligations.SampleIsReadAsAPatternItShows : Prop :=
  ∀ r c raw, wellFormed (litInstr r c raw) = true →
    (∃ r' c', decode (encode (litInstr r c raw)) = .ok (litInstr r' c' raw) ∧ showsCell r' c' raw = true) ∧
    ((∀ r' c', showsCell r' c' raw = true → r' = r ∧ c' = c) →
      decode (encode (litInstr r c raw)) = .ok (litInstr r c raw))

/-- 30 R51: a cell is lit iff its row is asserted and its column reads low, which under every layout is what 30
R50 extracts from the sample's bits; the twelve mask and match pairs say, in the default layout, which cells a
sample lights, and the samples the rule names light none or all. -/
def Obligations.LitPredicateIsMaskAndMatch : Prop :=
  (∀ (p : Params) (raw : Word16),
    rowAsserted p raw .r0 = (raw.getLsbD p.rowBit.r0.val == p.rowActive) ∧
    rowAsserted p raw .r1 = (raw.getLsbD p.rowBit.r1.val == p.rowActive) ∧
    rowAsserted p raw .r2 = (raw.getLsbD p.rowBit.r2.val == p.rowActive) ∧
    rowAsserted p raw .r3 = (raw.getLsbD p.rowBit.r3.val == p.rowActive) ∧
    colLow p raw .c0 = (raw.getLsbD p.colBit.c0.val == false) ∧
    colLow p raw .c1 = (raw.getLsbD p.colBit.c1.val == false) ∧
    colLow p raw .c2 = (raw.getLsbD p.colBit.c2.val == false)) ∧
  (∀ p raw r c, litNow p raw r c = (rowAsserted p raw r && colLow p raw c)) ∧
  (∀ raw r c, litNow Params.default raw r c =
    ((raw &&& ((1 <<< r.defaultBit) ||| (1 <<< c.defaultBit))) == 1 <<< r.defaultBit)) ∧
  (∀ r c, cellMask r c = (1 <<< r.defaultBit) ||| (1 <<< c.defaultBit) ∧ cellMatch r = 1 <<< r.defaultBit) ∧
  (∀ raw r c, matchesCell r c raw = litNow Params.default raw r c) ∧
  (∀ r c, litNow Params.default 0x00 r c = false ∧ litNow Params.default 0xFF r c = false ∧
    litNow Params.default 0x0E r c = false) ∧
  (∀ r c, litNow Params.default 0xF0 r c = true ∧ litNow Params.default 0xF1 r c = true)

/-- A word with opcode 5, 6 or 7 "is not a step of the machine" (30 R62 (3)): it is refused by name (the
spec's decision D30). -/
def Obligations.ReservedOpcodesRefused : Prop :=
  ∀ (w : OpWord) (s : State) (rest : List HostMove),
    5 ≤ (w.extractLsb' 21 3).toNat → s.inbox = .present (opwTransfer w) :: rest →
    step s = .refused (.undecodable (.reservedOpc (w.extractLsb' 21 3).toNat))

/-- The bits an operation ignores (30 R62 (5)): 19:16 always, the operand of `POLL.FAIL`, `TADV` and `TEXP`,
bits 15:10 of `CTRL`, and `wf` of the polls (the spec's decisions D29, D30). -/
def Obligations.IgnoredOperationBits : Prop :=
  ∀ (wf wf' : Bool) (z z' : BitVec 4) (opd opd' : Word16),
    let word (opc : BitVec 3) (wf : Bool) (z : BitVec 4) (opd : Word16) : OpWord :=
      opc ++ BitVec.ofBool wf ++ z ++ opd
    decodeOpw (word 0 wf z opd) = decodeOpw (word 0 wf' z' opd) ∧
    decodeOpw (word 1 wf z opd) = decodeOpw (word 1 wf' z' opd') ∧
    (opd.extractLsb' 0 10 = opd'.extractLsb' 0 10 →
      decodeOpw (word 2 wf z opd) = decodeOpw (word 2 wf z' opd')) ∧
    decodeOpw (word 3 wf z opd) = decodeOpw (word 3 wf z' opd') ∧
    decodeOpw (word 4 wf z opd) = decodeOpw (word 4 wf z' opd')

/-- 30 R62 (1): bit 0 and byte 1 of a sample have no effect, whatever the legal layout (log 14); for the
patterns by log 4. -/
def Obligations.SwingBitAndByteOneIgnored : Prop :=
  ∀ (raw raw' : Word16) (s : State), s.params.Legal → raw.extractLsb' 1 7 = raw'.extractLsb' 1 7 →
    exec (.pollOk raw) s = exec (.pollOk raw') s ∧
    ∀ r c, exec (litInstr r c raw) s = exec (litInstr r c raw') s

/-- A transfer of fewer than two bytes is a failed transaction ("derived" in 20 R38): on the read port `POLL.FAIL`
(20 R42); on the write port a failed write, of the word whose byte 0 was moved (30 R56), or, with no byte moved, of
the word the drain stands at; outside a drain there is none (20 R45; log 9). -/
def Obligations.ShortReadIsPollFail : Prop :=
  (∀ bytes : List Byte, bytes.length < 2 → decode ⟨.led, bytes⟩ = .ok .pollFail) ∧
  (∀ line : Fin 8, decode ⟨.btn, [(pressWord line).extractLsb' 0 8]⟩ = .ok (pressInstr line true)) ∧
  decode ⟨.btn, [releaseWord.extractLsb' 0 8]⟩ = .ok (.release true) ∧
  ∀ (s : State) (rest : List HostMove), s.inbox = .present ⟨.btn, []⟩ :: rest →
    let t : State := { s with inbox := rest, events := [] }
    (s.phase = .press → step s = exec (.release true) t) ∧
    (∀ b others, s.phase ≠ .press → s.q = b :: others →
      step s = exec (pressInstr (btnBitOf s.params b) true) t) ∧
    (s.phase ≠ .press → s.q = [] → step s = .refused .releaseNotDue)

/-- 30 R56: the press word of line p has bit p low and every other line high, the release word has all lines
high, and the bytes are those of the table (the byte order is the spec's decision D7). -/
def Obligations.OutputWordsAreOneHotLow : Prop :=
  (∀ p : Fin 8, pressWord p = ~~~((1 : Word16) <<< p.val)) ∧
  releaseWord = ~~~(0 : Word16) ∧ releaseWord = 0xFFFF ∧
  (∀ (p : Fin 8) (j : Nat), j < 16 → (pressWord p).getLsbD j = decide (j ≠ p.val)) ∧
  (∀ j, j < 16 → releaseWord.getLsbD j = true) ∧
  (∀ j, 8 ≤ j → j < 16 → ∀ p : Fin 8, (pressWord p).getLsbD j = true) ∧
  (List.ofFn fun p : Fin 8 => pressWord p) =
    [0xFFFE, 0xFFFD, 0xFFFB, 0xFFF7, 0xFFEF, 0xFFDF, 0xFFBF, 0xFF7F] ∧
  (List.ofFn fun p : Fin 8 => (pressWord p).extractLsb' 0 8) =
    ([0xFE, 0xFD, 0xFB, 0xF7, 0xEF, 0xDF, 0xBF, 0x7F] : List Byte) ∧
  (∀ p : Fin 8, (pressWord p).extractLsb' 8 8 = (0xFF : Byte)) ∧
  releaseWord.extractLsb' 0 8 = (0xFF : Byte) ∧ releaseWord.extractLsb' 8 8 = (0xFF : Byte)

/-- The operation lines of 30 R63 assemble to the words the rule writes beside them, in either letter case (the
spec's decision D29). -/
def Obligations.WrittenLinesAssemble : Prop :=
  let word (text : String) : Option Transfer := (assembleText text.toList).map encode
  word "POLL 0x2A" = some (opwTransfer 0x00002A) ∧
  word "POLL 0xAB2A" = some (opwTransfer 0x00AB2A) ∧
  word "POLLF" = some (opwTransfer 0x200000) ∧
  word "CTRL speed=high" = some (opwTransfer 0x40001C) ∧
  word "CTRL speed=medium" = some (opwTransfer 0x400014) ∧
  word "CTRL speed=low" = some (opwTransfer 0x40000C) ∧
  word "CTRL power=off" = some (opwTransfer 0x400001) ∧
  word "CTRL power=on" = some (opwTransfer 0x400003) ∧
  word "CTRL osc=on" = some (opwTransfer 0x400060) ∧
  word "CTRL osc=off" = some (opwTransfer 0x400020) ∧
  word "CTRL mode=normal" = some (opwTransfer 0x400180) ∧
  word "CTRL mode=nature" = some (opwTransfer 0x400280) ∧
  word "CTRL mode=sleep" = some (opwTransfer 0x400380) ∧
  word "CTRL mode=off" = some (opwTransfer 0x400080) ∧
  word "CTRL power=on speed=high osc=on mode=sleep" = some (opwTransfer 0x4003FF) ∧
  word "CTRL" = some (opwTransfer 0x400000) ∧
  word "TADV" = some (opwTransfer 0x600000) ∧
  word "texp" = some (opwTransfer 0x800000) ∧
  word "TEXP !wf" = some (opwTransfer 0x900000)

/-! ### The Decoder -/

/-- A poll inside a window (40 R70, R72, R73): every cell the sample lights counts one, the window counter
advances, and nothing else changes; the same for a sample named by any of the twelve patterns (log 4). -/
def Obligations.PollCountsTheSample : Prop :=
  ∀ (i : Instr) (raw : Word16) (s : State), (i = .pollOk raw ∨ ∃ r c, i = litInstr r c raw) →
    s.proc = false → s.wcnt ≠ 31 →
    ∃ acc, exec i s = .next { s with acc := acc, wcnt := s.wcnt + 1 } ∧
      ∀ r c, gridGet acc r c = if litNow s.params raw r c then gridGet s.acc r c + 1 else gridGet s.acc r c

/-- A well-formed pattern counts its own cell (30 R51, 40 R72), in the default layout of the pattern. That
a pattern is performed as the poll of its sample is the model's choice (log 4). -/
def Obligations.PatternCountsItsCell : Prop :=
  ∀ (r : Row) (c : Col) (raw : Word16) (s : State), wellFormed (litInstr r c raw) = true →
    s.params.rowBit = Params.default.rowBit → s.params.colBit = Params.default.colBit →
    s.params.rowActive = Params.default.rowActive → s.proc = false → s.wcnt ≠ 31 →
    ∃ acc, exec (litInstr r c raw) s = .next { s with acc := acc, wcnt := s.wcnt + 1 } ∧
      gridGet acc r c = gridGet s.acc r c + 1

/-- The poll that completes a window (40 R74 to R83): the sample is counted first, the counters are cleared,
each field of `DS` is what its own rule decodes from the verdicts (R77 to R80), and the events are `NOTIFY` if
speed, oscillation or mode changed, then `TIMER_TEXT` if the timer changed (this order is the spec's decision D28);
nothing else changes. `decodeWindow` names the four decodes. The patterns by log 4. -/
def Obligations.WindowEndStoresAndReports : Prop :=
  (∀ (i : Instr) (raw : Word16) (s : State), (i = .pollOk raw ∨ ∃ r c, i = litInstr r c raw) →
    s.proc = false → s.wcnt = 31 →
    let count (r : Row) (c : Col) : Nat :=
      (if litNow s.params raw r c then gridGet s.acc r c + 1 else gridGet s.acc r c).toNat
    let lit : Grid Bool := gridOf fun r c => decide (2 < count r c)
    let d : Decoded := {
      speed := decodeSpeed lit
      osc := decodeOsc lit
      mode := decodeMode s.params.modePriority lit
      timer := .mask (decodeTimer lit) }
    exec i s = .next { s with
      acc := gridOf fun _ _ => 0
      wcnt := 0
      ds := d
      events := s.events ++
        (if d.speed ≠ s.ds.speed ∨ d.osc ≠ s.ds.osc ∨ d.mode ≠ s.ds.mode
          then [.notify d.speed d.osc d.mode] else []) ++
        (if d.timer ≠ s.ds.timer then [.timerText d.timer] else []) }) ∧
  ∀ (p : Params) (lit : Grid Bool),
    (decodeWindow p lit).speed = decodeSpeed lit ∧ (decodeWindow p lit).osc = decodeOsc lit ∧
    (decodeWindow p lit).mode = decodeMode p.modePriority lit ∧
    (decodeWindow p lit).timer = .mask (decodeTimer lit)

/-- 40 R68: while `PROC` is true a poll changes no state and emits no event (for a failed read the spec's
decision D31; for the patterns log 4). -/
def Obligations.PollsSuspendedWhileProcessing : Prop :=
  ∀ (s : State) (i : Instr), isDecoderInstr i → s.proc = true → exec i s = .next s

/-- 40 R69: the word 0x200000 is a failed poll; it is logged and skipped; suspended, it is not even logged. -/
def Obligations.FailedPollOnlyLogs : Prop :=
  decodeTableWord 24 0x200000 = some .pollFail ∧
  ∀ s : State, exec .pollFail s =
    .next (if s.proc then s else { s with events := s.events ++ [.log .rd] })

/-- 40 R75: a cell is lit iff its own count is 3 or more. -/
def Obligations.VerdictIsCountAboveTwo : Prop :=
  (∀ (acc : Grid Count) r c, gridGet (thresh acc) r c = decide (2 < (gridGet acc r c).toNat)) ∧
  (∀ (acc : Grid Count) r c, gridGet acc r c = 2 → gridGet (thresh acc) r c = false) ∧
  (∀ (acc : Grid Count) r c, gridGet acc r c = 3 → gridGet (thresh acc) r c = true)

/-- 40 R77: the last lit of High, Medium, Low wins; none lit is Off ("derived" in the rule). -/
def Obligations.SpeedTieBreak : Prop :=
  ∀ lit : Grid Bool,
    decodeSpeed lit =
      (match gridGet lit .r0 .c1, gridGet lit .r1 .c1, gridGet lit .r2 .c1 with
       | false, false, false => .off
       | true, false, false => .high
       | _, true, false => .medium
       | _, _, true => .low)

/-- 40 R78: oscillation is the verdict of cell (0,2). -/
def Obligations.OscIsCellZeroTwo : Prop :=
  ∀ lit : Grid Bool, (decodeOsc lit = .on ↔ gridGet lit .r0 .c2 = true) ∧
    (decodeOsc lit = .off ↔ gridGet lit .r0 .c2 = false)

/-- 40 R79: with at most one mode cell lit the decode is that mode, or Off, in every order `MODE_PRIORITY`; with
several lit the last listed of them wins (00 R6), in every order, and so in the default order the last lit of
Normal, Nature, Sleep (the spec's decision D11; log 13). -/
def Obligations.ModeDecode : Prop :=
  (∀ (p : Params) (lit : Grid Bool) (m : ModeCell), p.Legal →
    modeLit lit m = true → (∀ m', modeLit lit m' = true → m' = m) →
    decodeMode p.modePriority lit = modeOfCell m) ∧
  (∀ (order : List ModeCell) (lit : Grid Bool), (∀ m, modeLit lit m = false) → decodeMode order lit = .off) ∧
  (∀ (before : List ModeCell) (m : ModeCell) (after : List ModeCell) (lit : Grid Bool),
    modeLit lit m = true → (∀ m' ∈ after, modeLit lit m' = false) →
    decodeMode (before ++ m :: after) lit = modeOfCell m) ∧
  (∀ lit : Grid Bool, decodeMode Params.default.modePriority lit =
    if gridGet lit .r2 .c2 then .sleep else if gridGet lit .r3 .c1 then .nature
    else if gridGet lit .r3 .c2 then .normal else .off)

/-- 40 R80: each timer bit is the verdict of its cell. -/
def Obligations.TimerBitsAreCells : Prop :=
  (∀ lit : Grid Bool,
    (decodeTimer lit).getLsbD 0 = gridGet lit .r3 .c0 ∧ (decodeTimer lit).getLsbD 1 = gridGet lit .r2 .c0 ∧
    (decodeTimer lit).getLsbD 2 = gridGet lit .r1 .c0 ∧ (decodeTimer lit).getLsbD 3 = gridGet lit .r0 .c0) ∧
  (∀ m : BitVec 4, ∃ lit : Grid Bool, decodeTimer lit = m) ∧
  (∀ lit : Grid Bool, gridGet lit .r0 .c0 = false → gridGet lit .r1 .c0 = false →
    gridGet lit .r2 .c0 = false → gridGet lit .r3 .c0 = false → decodeTimer lit = 0)

/-- 30 R55, R61: the mask read as a number is the duration in half hours ("derived" in R55). -/
def Obligations.TimerMaskIsHalfHours : Prop := ∀ m : BitVec 4, halfHours m = m.toNat

/-- A window is exactly 32 successful polls, whatever polls failed between or after them (40 R69, R73): from
an empty window in SAMPLING it ends with every counter at zero and `DS` decoded from the cells that more than 2
of those samples lit. -/
def Obligations.WindowDecodesThirtyTwoGoodSamples : Prop :=
  ∀ (s : State) (polls : List (Option Word16)),
    s.proc = false → s.wcnt = 0 → (∀ r c, gridGet s.acc r c = 0) →
    (goodSamples polls).length = 32 →
    ∃ es, execAll (polls.map pollOf) s = .next { s with
      ds := decodeWindow s.params
        (gridOf fun r c => decide (2 < (goodSamples polls).countP fun raw => litNow s.params raw r c))
      events := s.events ++ es }

/-- 70 R131: after a reset without a snapshot the 32nd poll always reports, whatever the samples; until then
no event comes, the status is the sentinels, and `CTRL` is dropped (the spec's decision D20). That `TIMER_TEXT`
comes too is "derived" in the rule. -/
def Obligations.ColdStartAlwaysReports : Prop :=
  ∀ (p : Params) (moves : List HostMove) (raws : List Word16), p.restore = none →
    (raws.length = 32 →
      ∃ t m, execAll (raws.map .pollOk) (State.resetWith p moves) = .next t ∧ t.ds.real ∧
        t.ds.timer = .mask m ∧
        t.events = [.notify t.ds.speed t.ds.osc t.ds.mode, .timerText (.mask m)]) ∧
    (raws.length < 32 →
      ∃ t, execAll (raws.map .pollOk) (State.resetWith p moves) = .next t ∧ t.events = [] ∧
        t.ds = unknownDs ∧
        ∀ wf req, exec (.ctrl wf req) t = .next { t with events := [.dropped .noState] })

/-- 70 R149 (3): after `PROC` has fallen, 64 successful polls always hold a whole window of their own, and the
last such window is what `DS` shows; it ends as many polls before the last as the interrupted window already
held. -/
def Obligations.SixtyFourPollsSettle : Prop :=
  ∀ (s : State) (raws : List Word16), Inv s → s.proc = false → raws.length = 64 →
    ∃ before window after t, raws = before ++ window ++ after ∧ window.length = 32 ∧ after.length = s.wcnt.toNat ∧
      execAll (raws.map .pollOk) s = .next t ∧
      t.ds = decodeWindow s.params
        (gridOf fun r c => decide (2 < window.countP fun raw => litNow s.params raw r c))

/-! ### The Sequencer -/

/-- 41 R87: the cyclic distance, its range and its table (row 0 is the spec's decision D18). -/
def Obligations.CyclicDistanceTable : Prop :=
  (∀ cur tgt : Int, (tgt ≥ cur → dist3 cur tgt = tgt - cur) ∧ (tgt < cur → dist3 cur tgt = tgt - cur + 3)) ∧
  (∀ cur tgt : Int, 0 ≤ cur → cur ≤ 3 → 1 ≤ tgt → tgt ≤ 3 → 0 ≤ dist3 cur tgt ∧ dist3 cur tgt ≤ 3) ∧
  ([0, 1, 2, 3].map fun cur => [1, 2, 3].map fun tgt => dist3 cur tgt) =
    [[1, 2, 3], [0, 1, 2], [2, 0, 1], [1, 2, 0]]

/-- 41 R89 to R94: the symbols a request asks for, field by field, from a `DS` without sentinels (the spec's
decisions D16 to D19 and D22). -/
def Obligations.RequestAsksForTheseSymbols : Prop :=
  ∀ (p : Params) (d : Decoded) (req : CtrlReq), noState d = false →
    ∃ power speed swing mode, requestSymbols p d req = power ++ speed ++ swing ++ mode ∧
      power =
        (if req.power = some false ∧ d.speed ≠ .off then [.off]
         else if req.power = some true ∧ d.speed = .off then
           (if p.onOffIndependent then [.off] else [.onspeed])
         else []) ∧
      (let on : Prop := req.power = some true ∨ (req.power = none ∧ d.speed ≠ .off)
       (∀ v, req.speed = some v → v ≠ .reserved → on →
         speed = List.replicate
           (dist3 (speedCode d.speed).toNat (reqSpeedCode v).toNat).toNat .speed) ∧
       ((req.speed = none ∨ req.speed = some .reserved ∨ ¬ on) → speed = []) ∧
       (∀ v, req.mode = some v → v ≠ .off → on →
         mode = List.replicate (dist3 (modeCode d.mode).toNat (reqModeCode v).toNat).toNat .mode) ∧
       ((req.mode = none ∨ req.mode = some .off ∨ ¬ on) → mode = [])) ∧
      swing =
        (if (req.osc = some true ∧ d.osc ≠ .on) ∨ (req.osc = some false ∧ d.osc ≠ .off)
         then [.swing] else [])

/-- 41 R86: a `CTRL` while processing is dropped with `BUSY` and changes nothing else. -/
def Obligations.ControlDroppedWhileProcessing : Prop :=
  ∀ (wf : Bool) (req : CtrlReq) (s : State), s.proc = true →
    exec (.ctrl wf req) s = .next { s with events := s.events ++ [.dropped .busy] }

/-- 41 R88: a `CTRL` that would compute from a sentinel is dropped with `NOSTATE` and changes nothing else
(the spec's decision D20; log 13). -/
def Obligations.ControlDroppedBeforeFirstWindow : Prop :=
  ∀ (wf : Bool) (req : CtrlReq) (s : State), s.proc = false →
    (s.ds.speed = .invalid ∨ s.ds.osc = .invalid ∨ s.ds.mode = .invalid) →
    exec (.ctrl wf req) s = .next { s with events := s.events ++ [.dropped .noState] }

/-- 41 R95 to R97, R99: an accepted `CTRL` whose list is empty changes nothing; otherwise the list becomes the
queue, `PROC` rises, and the first symbol's line is pressed in the same operation. The list is that of
RequestAsksForTheseSymbols, its order the spec's decision D19. `arm(T_PRESS)` is `TMR` armed with `PRESS_CYCLES`
(log 5, 70 R147, the spec's decision D24); the write port is 20 R47 with log 15. -/
def Obligations.ControlStartsItsDrain : Prop :=
  ∀ (wf : Bool) (req : CtrlReq) (s : State), s.proc = false → noState s.ds = false →
    (requestSymbols s.params s.ds req = [] → exec (.ctrl wf req) s = .next s) ∧
    (∀ b rest, requestSymbols s.params s.ds req = b :: rest →
      exec (.ctrl wf req) s = .next { s with
        q := b :: rest
        proc := true
        phase := .press
        tmr := .armed (pressCycles s.params)
        out := pressWord (btnBitOf s.params b)
        port := pressWord (btnBitOf s.params b)
        events := s.events ++ .wr (pressWord (btnBitOf s.params b)) :: if wf then [.log .wr] else [] })

/-- 41 R96: a request whose list is empty changes nothing and emits nothing; the list is empty when every field
equals the current one or is absent, and in the rule's corner cases: a speed or mode request while the fan is
and stays off or is being powered off, the reserved speed and the "off" preset. That power is
read from `DS.speed` is the spec's decision D16, when the fan counts as on its decision D17 (41 R89), and that the
reserved speed counts as absent its decision D30 (30 R62 (4), log 13). -/
def Obligations.NoDifferenceNoPress : Prop :=
  ∀ (wf : Bool) (req : CtrlReq) (s : State), s.proc = false → noState s.ds = false →
    let on : Prop := req.power = some true ∨ (req.power = none ∧ s.ds.speed ≠ .off)
    (requestSymbols s.params s.ds req = [] → exec (.ctrl wf req) s = .next s) ∧
    ((∀ power, req.power = some power → power = decide (s.ds.speed ≠ .off)) →
      (∀ v, req.speed = some v → v ≠ .reserved → on →
        (reqSpeedCode v).toNat = (speedCode s.ds.speed).toNat) →
      (∀ osc, req.osc = some osc → s.ds.osc = if osc then .on else .off) →
      (∀ v, req.mode = some v → v ≠ .off → on → (reqModeCode v).toNat = (modeCode s.ds.mode).toNat) →
      requestSymbols s.params s.ds req = [] ∧ exec (.ctrl wf req) s = .next s)

/-- 41 R107 ("derived" there): how long a request's list can be, and when it is longest. The rule's bound 5 with
the fan on is stated for a decoded mode other than Off only: with mode Off the list can have 6 (log 12). -/
def Obligations.RequestListBound : Prop :=
  ∀ (p : Params) (d : Decoded) (req : CtrlReq), noState d = false →
    (requestSymbols p d req).length ≤ 8 ∧
    ((requestSymbols p d req).length = 8 →
      d.speed = .off ∧ d.mode = .off ∧ req.power = some true ∧ req.speed = some .high ∧
      req.mode = some .sleep ∧ ∃ on, req.osc = some on ∧ d.osc ≠ if on then .on else .off) ∧
    (d.speed ≠ .off → req.power ≠ some false → d.mode ≠ .off → (requestSymbols p d req).length ≤ 5) ∧
    (req.power = some false → (requestSymbols p d req).length ≤ 2)

/-- 41 R98: `TADV` presses `TIMER`, unless a drain runs (the spec's decision D21); it reads no field of `DS`.
The start and the press are those of R97 and R99; `arm(T_PRESS)` is `TMR` armed with `PRESS_CYCLES` (log 5, 70
R147, the spec's decision D24); the write port is 20 R47 with log 15. -/
def Obligations.AdvanceTimerPressesTimer : Prop :=
  ∀ (wf : Bool) (s : State),
    (s.proc = true → exec (.tadv wf) s = .next { s with events := s.events ++ [.dropped .busy] }) ∧
    (s.proc = false → exec (.tadv wf) s = .next { s with
      q := [.timer]
      proc := true
      phase := .press
      tmr := .armed (pressCycles s.params)
      out := pressWord s.params.btnBit.timer
      port := pressWord s.params.btnBit.timer
      events := s.events ++ .wr (pressWord s.params.btnBit.timer) :: if wf then [.log .wr] else [] })

/-- 41 R101: `TEXP` in phase PRESS drives all lines high and pops; a gap follows while symbols are left, else
the drain ends in the same operation, `TMR` idle since its expiry (41 R100). `arm(T_GAP)` is `TMR` armed with
`GAP_CYCLES` (log 5, 70 R147, the spec's decision D24); the write port is 20 R47 with log 15. -/
def Obligations.ReleasePopsAndGoesOn : Prop :=
  ∀ (wf : Bool) (s : State) (b : Button) (rest : List Button),
    isArmed s.tmr = true → s.phase = .press → s.q = b :: rest →
    exec (.texp wf) s = .next { s with
      out := 0xFFFF
      port := 0xFFFF
      q := rest
      phase := if rest = [] then .idle else .gap
      proc := if rest = [] then false else s.proc
      tmr := if rest = [] then .idle else .armed (gapCycles s.params)
      events := s.events ++ .wr 0xFFFF :: if wf then [.log .wr] else [] }

/-- 41 R99, R102: `TEXP` in phase GAP presses the line of the front, which stays queued. That line is the
`BTN_BIT` of the symbol (30 R57), for every map, and in the default map (the spec's decision D8) the position the
table gives. `arm(T_PRESS)` is `TMR` armed with `PRESS_CYCLES` (log 5, 70 R147, the spec's decision D24); the write
port is 20 R47 with log 15. -/
def Obligations.AssertPressesTheFront : Prop :=
  (∀ (wf : Bool) (s : State) (b : Button) (rest : List Button),
    isArmed s.tmr = true → s.phase = .gap → s.q = b :: rest →
    exec (.texp wf) s = .next { s with
      out := pressWord (btnBitOf s.params b)
      port := pressWord (btnBitOf s.params b)
      phase := .press
      tmr := .armed (pressCycles s.params)
      events := s.events ++ .wr (pressWord (btnBitOf s.params b)) :: if wf then [.log .wr] else [] }) ∧
  (∀ p : Params,
    btnBitOf p .off = p.btnBit.off ∧ btnBitOf p .timer = p.btnBit.timer ∧
    btnBitOf p .speed = p.btnBit.speed ∧ btnBitOf p .onspeed = p.btnBit.onspeed ∧
    btnBitOf p .mode = p.btnBit.mode ∧ btnBitOf p .swing = p.btnBit.swing) ∧
  ([.off, .timer, .speed, .onspeed, .mode, .swing].map fun b => (btnBitOf Params.default b).val) =
    [0, 1, 2, 3, 4, 5]

/-- The output words as instructions, the model's choice of log 7: `PRESS.b0` to `PRESS.b7` are the assert step
(41 R99) of the front's line, due only for that line and only while no line is pressed (41 R105), and refused
else; `RELEASE` is the release step (41 R101), due only in phase PRESS, and refused else, and a fault where there is
nothing to pop (log 10). The delays are `PRESS_CYCLES` and `GAP_CYCLES` (log 5, 70 R147, the spec's decision
D24); the write port is 20 R47 with log 15. -/
def Obligations.ButtonWordsAreTheDrainsSteps : Prop :=
  ∀ (wf : Bool) (s : State),
    (∀ b rest, s.q = b :: rest →
      (s.phase ≠ .press → exec (pressInstr (btnBitOf s.params b) wf) s = .next { s with
        out := pressWord (btnBitOf s.params b)
        port := pressWord (btnBitOf s.params b)
        phase := .press
        tmr := .armed (pressCycles s.params)
        events := s.events ++ .wr (pressWord (btnBitOf s.params b)) :: if wf then [.log .wr] else [] }) ∧
      (∀ line, (line ≠ btnBitOf s.params b ∨ s.phase = .press) →
        exec (pressInstr line wf) s = .refused .pressNotDue) ∧
      (s.phase = .press → exec (.release wf) s = .next { s with
        out := 0xFFFF
        port := 0xFFFF
        q := rest
        phase := if rest = [] then .idle else .gap
        proc := if rest = [] then false else s.proc
        tmr := if rest = [] then .idle else .armed (gapCycles s.params)
        events := s.events ++ .wr 0xFFFF :: if wf then [.log .wr] else [] })) ∧
    (s.q = [] → ∀ line, exec (pressInstr line wf) s = .refused .pressNotDue) ∧
    (s.phase = .press → s.q = [] → exec (.release wf) s = .fault .popEmptyQueue) ∧
    (s.phase ≠ .press → exec (.release wf) s = .refused .releaseNotDue)

/-- 41 R100: "A `TEXP` with `TMR` idle is not a step of the machine" (the spec's decision D32). -/
def Obligations.ExpiryNeedsAnArmedDelay : Prop :=
  ∀ (wf : Bool) (s : State), s.tmr = .idle → exec (.texp wf) s = .refused .delayNotArmed

/-- 41 R103: a failed write is logged, after its `WR`, and changes nothing else. That the write port shows the
value sent, whether the write fails or not, is 20 R47 and 70 R147 with the model's log 15. -/
def Obligations.WriteFailureOnlyLogs : Prop :=
  ∀ (withAnswer : Bool → Instr) (s t : State),
    (withAnswer = .tadv ∨ withAnswer = .texp ∨ ∃ req, withAnswer = fun wf => .ctrl wf req) →
    exec (withAnswer false) s = .next t →
    (t.events = s.events ∨ t.events = s.events ++ [.dropped .busy] ∨
        t.events = s.events ++ [.dropped .noState]) ∧ exec (withAnswer true) s = .next t ∨
    ∃ v, t.events = s.events ++ [.wr v] ∧ t.out = v ∧ t.port = v ∧
      exec (withAnswer true) s = .next { t with events := s.events ++ [.wr v, .log .wr] }

/-- 20 R45, 41 R104: a request that queues n symbols and the 2n - 1 expiries that follow write, for each symbol
in turn, its press word and the release word, and leave the block as it was, whatever writes fail; the write port is
20 R47 with log 15. -/
def Obligations.DrainWritesEverySymbolInOrder : Prop :=
  ∀ (s : State) (wf : Bool) (req : CtrlReq) (answers : List Bool),
    s.proc = false → noState s.ds = false → requestSymbols s.params s.ds req ≠ [] →
    answers.length = 2 * (requestSymbols s.params s.ds req).length - 1 →
    ∃ es, execAll (.ctrl wf req :: answers.map .texp) s =
        .next { s with
          q := [], phase := .idle, tmr := .idle, out := 0xFFFF, port := 0xFFFF, events := s.events ++ es } ∧
      writesOf es =
        (requestSymbols s.params s.ds req).flatMap fun b => [pressWord (btnBitOf s.params b), 0xFFFF]

/-! ### Frames -/

/-- The polls and the sample patterns touch only the counters, `DS` and the events (40 R70), and `DS` only at a
window end (40 R84 (7)); the patterns by log 4. -/
def Obligations.DecoderFrame : Prop :=
  ∀ (i : Instr) (s t : State), isDecoderInstr i → exec i s = .next t →
    t = { s with acc := t.acc, wcnt := t.wcnt, ds := t.ds, events := t.events } ∧
    (s.wcnt ≠ 31 → t.ds = s.ds)

/-- `CTRL`, `TADV`, `TEXP`, `PRESS.b0` to `PRESS.b7` and `RELEASE` never write `DS`, `ACC` or `WCNT` (41 R85),
nor the configuration (10 R25) or the host's moves; the output words by log 7. -/
def Obligations.SequencerFrame : Prop :=
  ∀ (i : Instr) (s t : State), isSequencerInstr i → exec i s = .next t →
    t = { s with
      q := t.q, proc := t.proc, phase := t.phase, tmr := t.tmr, out := t.out, port := t.port, events := t.events }

/-- 20 R43: an instruction appends its events, at most one of them a write, whose value `OUT` and the write port
then hold, failed or not (log 15); with no write both are unchanged (10 R24; 20 R40, R47). -/
def Obligations.AtMostOneWritePerInstruction : Prop :=
  ∀ (i : Instr) (s t : State), exec i s = .next t →
    ∃ es, t.events = s.events ++ es ∧
      ((writesOf es = [] ∧ t.out = s.out ∧ t.port = s.port) ∨ (writesOf es = [t.out] ∧ t.port = t.out))

/-! ### Invariants and modes -/

/-- 10 R30: the state after reset; it is one state (70 R130). And the codes of `DS` (30 R52 to R55), the
sentinels' and the real values'. The codes of Off, On, Medium and the sentinels are the spec's decision D9, the
values of `Q`, `TMR` and `OUT` its decision D23; that the port shows `OUT` before any write is log 15. -/
def Obligations.ResetValues : Prop :=
  (∀ r c, gridGet State.reset.acc r c = 0) ∧ State.reset.wcnt = 0 ∧
  State.reset.ds = ⟨.invalid, .invalid, .invalid, .invalid⟩ ∧
  State.reset.q = [] ∧ State.reset.proc = false ∧ State.reset.phase = .idle ∧
  State.reset.tmr = .idle ∧ State.reset.out = 0xFFFF ∧ State.reset.port = 0xFFFF ∧
  [Speed.off, .low, .medium, .high, .invalid].map speedCode = [0, 1, 2, 3, 7] ∧
  [Osc.off, .on, .invalid].map oscCode = [0, 1, 3] ∧
  [Mode.off, .normal, .nature, .sleep, .invalid].map modeCode = [0, 1, 2, 3, 7] ∧
  timerCode .invalid = 31 ∧ ∀ m : BitVec 4, (timerCode (.mask m)).toNat = m.toNat

/-- 70 R129, R132: reset gives that state from every state, emits nothing, and with a snapshot shows the
snapshot's four values; it keeps the configuration and the host's moves (log 11), and, for "reset itself writes
nothing", what stands on the write port. -/
def Obligations.ResetFromAnyState : Prop :=
  ∀ (s : State) (rest : List HostMove), s.inbox = .reset :: rest →
    step s = .next { State.reset with
      params := s.params, inbox := rest, ds := s.params.restore.getD unknownDs, port := s.port }

/-- The invariant of 10 R28 holds after reset under every legal parameter (log 14), and with it that of the write port
(20 R34, 70 R129), whose 0xFFFF before any write is the model's (log 15). -/
def Obligations.ResetHasInvariant : Prop :=
  Inv State.reset ∧ ∀ (p : Params) (moves : List HostMove), p.Legal → Inv (State.resetWith p moves)

/-- 10 R28: every step, whatever the host's move, keeps the invariant, and with it what the write port shows
(20 R34, R47; 70 R129; log 15). -/
def Obligations.StepKeepsInvariant : Prop :=
  ∀ s t : State, Inv s → step s = .next t → Inv t

/-- 60 R113: under the invariant no operation stops, but a `TEXP` with the delay not armed, and no step
faults; what the output words do when not due is in ButtonWordsAreTheDrainsSteps. -/
def Obligations.NothingFaults : Prop :=
  (∀ s : State, Inv s → ∀ f, step s ≠ .fault f) ∧
  (∀ (s : State) (raw : Word16), ∃ t, exec (.pollOk raw) s = .next t) ∧
  (∀ s : State, ∃ t, exec .pollFail s = .next t) ∧
  (∀ (s : State) (wf : Bool) (req : CtrlReq), ∃ t, exec (.ctrl wf req) s = .next t) ∧
  (∀ (s : State) (wf : Bool), ∃ t, exec (.tadv wf) s = .next t) ∧
  (∀ (s : State) (wf : Bool), Inv s → isArmed s.tmr = true → ∃ t, exec (.texp wf) s = .next t)

/-- 60 R120: which instructions change the mode, and when; `RELEASE` by log 7. -/
def Obligations.ModeChangesOnlyHere : Prop :=
  ∀ (i : Instr) (s t : State), exec i s = .next t →
    (s.proc = false → t.proc = true →
      ∃ wf, i = .tadv wf ∨
        ∃ req, i = .ctrl wf req ∧ noState s.ds = false ∧ requestSymbols s.params s.ds req ≠ []) ∧
    (s.proc = true → t.proc = false →
      ∃ wf b, (i = .texp wf ∨ i = .release wf) ∧ s.phase = .press ∧ s.q = [b])

/-- 10 R22: the only moves of `PHASE` are IDLE to PRESS, PRESS to GAP or IDLE, and GAP to PRESS. -/
def Obligations.PhaseMoves : Prop :=
  ∀ (i : Instr) (s t : State), Inv s → exec i s = .next t →
    t.phase = s.phase ∨ (s.phase = .idle ∧ t.phase = .press) ∨
    (s.phase = .press ∧ (t.phase = .gap ∨ t.phase = .idle)) ∨ (s.phase = .gap ∧ t.phase = .press)

/-- 60 R121: in PROCESSING the counters and `DS` are frozen; in SAMPLING, while it lasts, the Sequencer's fields
hold their idle values. -/
def Obligations.StatePerMode : Prop :=
  ∀ (i : Instr) (s t : State), Inv s → exec i s = .next t →
    (s.proc = true → t.acc = s.acc ∧ t.wcnt = s.wcnt ∧ t.ds = s.ds) ∧
    (t.proc = false → t.q = [] ∧ t.phase = .idle ∧ t.tmr = .idle ∧ t.out = 0xFFFF)

/-- 41 R105: under the invariant at most one line is low, and only one that carries a button, in `OUT` and on the
write port, where a reset can leave a line pressed (70 R129). -/
def Obligations.NeverTwoLinesLow : Prop :=
  ∀ s : State, Inv s → ∀ v, (v = s.out ∨ v = s.port) →
    ∀ j k, j < 16 → k < 16 → v.getLsbD j = false → v.getLsbD k = false →
    j = k ∧ j < 8 ∧ ∃ b, (btnBitOf s.params b).val = j

/-- 10 R18, R13: a decoded state without sentinels never holds one again: no instruction and no clock cycle out
of reset puts one back. -/
def Obligations.SentinelsNeverReturn : Prop :=
  (∀ (i : Instr) (s t : State), exec i s = .next t → s.ds.real → t.ds.real) ∧
  (∀ (p : Pins) (s t : State), p.rst = false → clockCycle p s = .next t → s.ds.real → t.ds.real)

/-- No instruction and no cycle out of reset changes the configuration (10 R25, 70 R133). -/
def Obligations.ConfigurationIsConstant : Prop :=
  (∀ (i : Instr) (s t : State), exec i s = .next t → t.params = s.params) ∧
  (∀ (p : Pins) (s t : State), p.rst = false → clockCycle p s = .next t →
    t.params = s.params ∧ p.cfgOnOff = s.params.onOffIndependent)

/-! ### Steps and clock cycles -/

/-- A step runs the decoded instruction, with the oldest move taken and no event left over (log 1); with no move
pending the block "simply holds its state" (60 R127). -/
def Obligations.StepRunsTheInstruction : Prop :=
  (∀ (s : State) (x : Transfer) (i : Instr) (rest : List HostMove),
    s.inbox = .present x :: rest → decode x = .ok i →
    step s = exec i { s with inbox := rest, events := [] }) ∧
  (∀ s : State, s.inbox = [] → step s = .next { s with events := [] })

/-- 70 R148: a cycle out of reset is the sequential composition `CTRL; TADV; POLL.*; TEXP` of what is present
(the spec's decisions D24, D25);
then a delay that was armed and does not expire is one lower (70 R147). -/
def Obligations.CycleIsSequentialComposition : Prop :=
  ∀ (p : Pins) (s : State), RunningPins p s →
    (delayDue s.tmr = true → clockCycle p s = execAll (cycleInstrs p true) s) ∧
    (delayDue s.tmr = false → ∃ t, execAll (cycleInstrs p false) s = .next t ∧
      clockCycle p s = .next { t with tmr := if isArmed s.tmr then tickDelay t.tmr else t.tmr })

/-- 70 R147: a delay armed with n + 1 stands at 1 after n cycles and its `TEXP` is performed in the next one,
whatever polls and requests come meanwhile (41 R100): they change nothing but the events, and write nothing
(cycles are the spec's decision D24). -/
def Obligations.DelayTakesExactlyItsCycles : Prop :=
  ∀ (n : Nat) (pins : List Pins) (last : Pins) (s : State),
    s.proc = true → s.tmr = .armed (n + 1) → pins.length = n → (∀ p ∈ pins, RunningPins p s) →
    RunningPins last s →
    ∃ t before, clockAll pins s = .next t ∧ t = { s with tmr := .armed 1, events := s.events ++ before } ∧
      writesOf before = [] ∧
      ∃ es, clockCycle last t = exec (.texp last.wrFail) { t with events := t.events ++ es } ∧
        writesOf es = []

/-- 41 R106 at the pin level, with `F_CLK` a multiple of 20 Hz so that 50 ms are k cycles: a request that queues
n symbols keeps `PROC` true for exactly (2n - 1) k cycles, `100n - 50` ms, whatever stands on the pins meanwhile,
and then the block is idle again ("derived" in the rule; cycles are the spec's decision D24). -/
def Obligations.DrainTakesItsTime : Prop :=
  ∀ (k : Nat) (s : State) (first : Pins) (pins : List Pins),
    0 < k → s.params.fClk = 20 * k → s.proc = false → s.tmr = .idle → noState s.ds = false →
    RunningPins first s → first.ctrlValid = true → (∀ p ∈ pins, RunningPins p s) →
    let n := (requestSymbols s.params s.ds (decodeCtrlw first.ctrlReq)).length
    0 < n → pins.length = (2 * n - 1) * k →
    (∀ m, m < (2 * n - 1) * k → ∃ u, clockAll (first :: pins.take m) s = .next u ∧ u.proc = true) ∧
    ∃ t, clockAll (first :: pins) s = .next t ∧ t.proc = false ∧ t.q = [] ∧ t.phase = .idle ∧
      t.tmr = .idle ∧ t.out = 0xFFFF ∧ t.port = 0xFFFF

/-- 70 R148: a `CTRL` that starts a drain makes the `TADV` of its cycle dropped and the poll ignored; a `CTRL` with
an empty list, like none, lets the `TADV` of its cycle start, and the poll is then ignored; any request and any poll
in the cycle of an expiry are judged with `PROC` still true (the spec's decision D25). -/
def Obligations.SameCycleConflicts : Prop :=
  ∀ (p : Pins) (s : State), RunningPins p s →
    (∀ t, p.ctrlValid = true → s.proc = false → s.tmr = .idle →
      exec (.ctrl p.wrFail (decodeCtrlw p.ctrlReq)) s = .next t → t.proc = true →
      clockCycle p s =
        .next { t with events := t.events ++ if p.tadvValid then [.dropped .busy] else [] }) ∧
    (p.tadvValid = true → s.proc = false → s.tmr = .idle →
      (p.ctrlValid = true →
        noState s.ds = false ∧ requestSymbols s.params s.ds (decodeCtrlw p.ctrlReq) = []) →
      clockCycle p s = exec (.tadv p.wrFail) s) ∧
    (s.proc = true → delayDue s.tmr = true →
      clockCycle p s = exec (.texp p.wrFail) { s with
        events := s.events ++ ((if p.ctrlValid then [.dropped .busy] else []) ++
          if p.tadvValid then [.dropped .busy] else []) })

/-- 70 R129: in reset every strobe is ignored; the state is that of reset, with the configuration pin as
sampled (log 11); `btn_out` stays "at whatever the last write set" (the spec's decisions D2, D23). -/
def Obligations.ResetPinIgnoresStrobes : Prop :=
  ∀ (p : Pins) (s : State), p.rst = true →
    clockCycle p s =
      .next { State.resetWith { s.params with onOffIndependent := p.cfgOnOff } s.inbox with port := s.port }

/-- 70 R147: both delays are `0.050 * F_CLK` rounded to a nearest whole number of cycles, and at least 1 (the
spec's decision D24). Below and above one half the number is forced; at exactly one half either neighbour may be
meant (log 6). Where the product is whole, `F_CLK` a multiple of 20 Hz, it is the product. -/
def Obligations.DelayCyclesAtWholeProducts : Prop :=
  ∀ p : Params,
    gapCycles p = pressCycles p ∧ 1 ≤ pressCycles p ∧
    (∀ n, 1 ≤ n → 1000 * n < 50 * p.fClk + 500 → 50 * p.fClk < 1000 * n + 500 → pressCycles p = n) ∧
    (∀ n, 50 * p.fClk = 1000 * n + 500 → pressCycles p = max 1 n ∨ pressCycles p = n + 1) ∧
    (50 * p.fClk < 500 → pressCycles p = 1) ∧
    (∀ k, 0 < k → p.fClk = 20 * k → pressCycles p = k)

/-- 10 R29, 70 R147: the output pins of an operation's cycle: the status as it was, the write port, a strobe for
each event, and the reason of a drop, 0 BUSY or 1 NOSTATE (absent without a drop, log 15). In every cycle, a reset
cycle among them, `btn_out` is the value written in it, else what it was (20 R47: "held until the next write");
`OUT` too follows the writes of a cycle out of reset (10 R24), whose drops agree on the reason (70 R148). The pins
are the spec's decision D2. -/
def Obligations.OutputPins : Prop :=
  (∀ s t : State,
    (pinOut s t).stSpeed = speedCode s.ds.speed ∧ (pinOut s t).stOsc = oscCode s.ds.osc ∧
    (pinOut s t).stMode = modeCode s.ds.mode ∧ (pinOut s t).stTimer = timerCode s.ds.timer ∧
    (pinOut s t).processing = s.proc ∧
    (pinOut s t).btnOut = t.port ∧
    ((pinOut s t).wrValid = true ↔ ∃ v, Event.wr v ∈ t.events) ∧
    ((pinOut s t).changed = true ↔ ∃ a b c, Event.notify a b c ∈ t.events) ∧
    ((pinOut s t).timerChanged = true ↔ ∃ m, Event.timerText m ∈ t.events) ∧
    ((pinOut s t).errRd = true ↔ Event.log .rd ∈ t.events) ∧
    ((pinOut s t).errWr = true ↔ Event.log .wr ∈ t.events) ∧
    ((pinOut s t).reqDropped = true ↔ ∃ why, Event.dropped why ∈ t.events) ∧
    ((∀ why, Event.dropped why ∉ t.events) → (pinOut s t).dropReason = none) ∧
    (∀ why, Event.dropped why ∈ t.events → (∀ other, Event.dropped other ∈ t.events → other = why) →
      (pinOut s t).dropReason = some (if why = .busy then 0 else 1))) ∧
  (∀ (p : Pins) (s t : State), s.events = [] → clockCycle p s = .next t →
    (pinOut s t).btnOut = (writesOf t.events).getLastD s.port) ∧
  ∀ (p : Pins) (s t : State), RunningPins p s → s.events = [] → clockCycle p s = .next t →
    t.out = (writesOf t.events).getLastD s.out ∧
    ∀ why other, Event.dropped why ∈ t.events → Event.dropped other ∈ t.events → other = why
end

