-- ==== Sys2Proof/Laws/Decode.lean ====
section
/-! SUPPORT. Once per format: the decoder reads back the word its bytes were cut from, and which fields and
patterns it sees in it. -/

namespace Sys2Proof

theorem word16_of_bytes (v : Word16) : word16 (v.extractLsb' 0 8) (v.extractLsb' 8 8) = v := by
  apply BitVec.eq_of_getLsbD_eq
  intro i hi
  simp only [word16, BitVec.getLsbD_append, BitVec.getLsbD_extractLsb']
  split_ifs with low
  · simp [low]
  · have top : i - 8 < 8 := by omega
    have at' : 8 + (i - 8) = i := by omega
    simp only [top, at', decide_true, Bool.true_and]

theorem word24_of_bytes (w : OpWord) :
    word24 (w.extractLsb' 0 8) (w.extractLsb' 8 8) (w.extractLsb' 16 8) = w := by
  apply BitVec.eq_of_getLsbD_eq
  intro i hi
  simp only [word24, BitVec.getLsbD_append, BitVec.getLsbD_extractLsb']
  split_ifs with low mid
  · simp [low]
  · have at' : 8 + (i - 8) = i := by omega
    simp only [mid, at', decide_true, Bool.true_and]
  · have top : i - 8 - 8 < 8 := by omega
    have at' : 16 + (i - 8 - 8) = i := by omega
    simp only [top, at', decide_true, Bool.true_and]

/-- The operation word of 30 R59. -/
theorem decode_opwTransfer (w : OpWord) : decode (opwTransfer w) = decodeOpw w := by
  rw [show decode (opwTransfer w) = decodeOpw (word24 _ _ _) from rfl, word24_of_bytes]

/-- The sample of 30 R49. -/
theorem decode_ledTransfer (raw : Word16) : decode (ledTransfer raw) = .ok (decodeRaw raw) := by
  rw [show decode (ledTransfer raw) = .ok (decodeRaw (word16 _ _)) from rfl, word16_of_bytes]

/-- The output word of 30 R56, with the answer. -/
theorem decode_btnTransfer (v : Word16) (wf : Bool) : decode (btnTransfer v wf) = decodeOutw v wf := by
  rw [show decode (btnTransfer v wf) = decodeOutw (word16 _ _) _ from rfl, word16_of_bytes]
  cases wf <;> rfl

/-- 30 R60: every request is read back from its word. -/
theorem decodeCtrlw_encodeCtrlw (req : CtrlReq) : decodeCtrlw (encodeCtrlw req) = req := by
  obtain ⟨power, speed, osc, mode⟩ := req
  rcases power with _ | _ | _ <;> rcases speed with _ | _ | _ | _ | _ <;> rcases osc with _ | _ | _ <;>
    rcases mode with _ | _ | _ | _ | _ <;> decide

/-- 30 R51: mask and match say that the row bit is 1 and the column bit 0. -/
theorem matchesCell_eq_showsCell (r : Row) (c : Col) (raw : Word16) :
    matchesCell r c raw = showsCell r c raw := by
  rw [Bool.eq_iff_iff]
  simp only [matchesCell, showsCell, beq_iff_eq]
  constructor
  · intro h
    have row := congrArg (fun v => v.getLsbD r.defaultBit) h
    have col := congrArg (fun v => v.getLsbD c.defaultBit) h
    cases r <;> cases c <;>
      simp [cellMask, cellMatch, Row.defaultBit, Col.defaultBit] at row col ⊢ <;> exact ⟨row, col⟩
  · intro h
    apply BitVec.eq_of_getLsbD_eq
    intro i hi
    cases r <;> cases c <;> simp [cellMask, cellMatch, Row.defaultBit, Col.defaultBit] at h ⊢ <;>
      (interval_cases i <;> simp [h])

end Sys2Proof
end

