-- ==== Sys2Proof/Laws/State.lean ====
section
/-! SUPPORT. What each update of the state leaves in each field, one lemma per field per update, so that no
later proof unfolds a record update. -/

namespace Sys2Proof.Machine

/-! ### emit -/

@[simp] theorem emit_acc (e : Event) (s : Work) :
    (emit e s).acc = s.acc := rfl
@[simp] theorem emit_wcnt (e : Event) (s : Work) :
    (emit e s).wcnt = s.wcnt := rfl
@[simp] theorem emit_ds (e : Event) (s : Work) :
    (emit e s).ds = s.ds := rfl
@[simp] theorem emit_q (e : Event) (s : Work) :
    (emit e s).q = s.q := rfl
@[simp] theorem emit_proc (e : Event) (s : Work) :
    (emit e s).proc = s.proc := rfl
@[simp] theorem emit_phase (e : Event) (s : Work) :
    (emit e s).phase = s.phase := rfl
@[simp] theorem emit_tmr (e : Event) (s : Work) :
    (emit e s).tmr = s.tmr := rfl
@[simp] theorem emit_out (e : Event) (s : Work) :
    (emit e s).out = s.out := rfl
@[simp] theorem emit_port (e : Event) (s : Work) :
    (emit e s).port = s.port := rfl
@[simp] theorem emit_events (e : Event) (s : Work) :
    (emit e s).events = s.events ++ [e] := rfl

/-! ### raise -/

@[simp] theorem raise_acc (e : ErrKind) (s : Work) :
    (raise e s).acc = s.acc := rfl
@[simp] theorem raise_wcnt (e : ErrKind) (s : Work) :
    (raise e s).wcnt = s.wcnt := rfl
@[simp] theorem raise_ds (e : ErrKind) (s : Work) :
    (raise e s).ds = s.ds := rfl
@[simp] theorem raise_q (e : ErrKind) (s : Work) :
    (raise e s).q = s.q := rfl
@[simp] theorem raise_proc (e : ErrKind) (s : Work) :
    (raise e s).proc = s.proc := rfl
@[simp] theorem raise_phase (e : ErrKind) (s : Work) :
    (raise e s).phase = s.phase := rfl
@[simp] theorem raise_tmr (e : ErrKind) (s : Work) :
    (raise e s).tmr = s.tmr := rfl
@[simp] theorem raise_out (e : ErrKind) (s : Work) :
    (raise e s).out = s.out := rfl
@[simp] theorem raise_port (e : ErrKind) (s : Work) :
    (raise e s).port = s.port := rfl
@[simp] theorem raise_events (e : ErrKind) (s : Work) :
    (raise e s).events = s.events ++ [.log e] := rfl

/-! ### arm -/

@[simp] theorem arm_acc (n : Nat) (s : Work) :
    (arm n s).acc = s.acc := rfl
@[simp] theorem arm_wcnt (n : Nat) (s : Work) :
    (arm n s).wcnt = s.wcnt := rfl
@[simp] theorem arm_ds (n : Nat) (s : Work) :
    (arm n s).ds = s.ds := rfl
@[simp] theorem arm_q (n : Nat) (s : Work) :
    (arm n s).q = s.q := rfl
@[simp] theorem arm_proc (n : Nat) (s : Work) :
    (arm n s).proc = s.proc := rfl
@[simp] theorem arm_phase (n : Nat) (s : Work) :
    (arm n s).phase = s.phase := rfl
@[simp] theorem arm_tmr (n : Nat) (s : Work) :
    (arm n s).tmr = .armed n := rfl
@[simp] theorem arm_out (n : Nat) (s : Work) :
    (arm n s).out = s.out := rfl
@[simp] theorem arm_port (n : Nat) (s : Work) :
    (arm n s).port = s.port := rfl
@[simp] theorem arm_events (n : Nat) (s : Work) :
    (arm n s).events = s.events := rfl

/-! ### disarm -/

@[simp] theorem disarm_acc (s : Work) :
    (disarm s).acc = s.acc := rfl
@[simp] theorem disarm_wcnt (s : Work) :
    (disarm s).wcnt = s.wcnt := rfl
@[simp] theorem disarm_ds (s : Work) :
    (disarm s).ds = s.ds := rfl
@[simp] theorem disarm_q (s : Work) :
    (disarm s).q = s.q := rfl
@[simp] theorem disarm_proc (s : Work) :
    (disarm s).proc = s.proc := rfl
@[simp] theorem disarm_phase (s : Work) :
    (disarm s).phase = s.phase := rfl
@[simp] theorem disarm_tmr (s : Work) :
    (disarm s).tmr = .idle := rfl
@[simp] theorem disarm_out (s : Work) :
    (disarm s).out = s.out := rfl
@[simp] theorem disarm_port (s : Work) :
    (disarm s).port = s.port := rfl
@[simp] theorem disarm_events (s : Work) :
    (disarm s).events = s.events := rfl

/-! ### memWrite -/

@[simp] theorem memWrite_acc (v : Word16) (wf : Bool) (s : Work) :
    (memWrite v wf s).acc = s.acc := by
  cases wf <;> simp [memWrite]
@[simp] theorem memWrite_wcnt (v : Word16) (wf : Bool) (s : Work) :
    (memWrite v wf s).wcnt = s.wcnt := by
  cases wf <;> simp [memWrite]
@[simp] theorem memWrite_ds (v : Word16) (wf : Bool) (s : Work) :
    (memWrite v wf s).ds = s.ds := by
  cases wf <;> simp [memWrite]
@[simp] theorem memWrite_q (v : Word16) (wf : Bool) (s : Work) :
    (memWrite v wf s).q = s.q := by
  cases wf <;> simp [memWrite]
@[simp] theorem memWrite_proc (v : Word16) (wf : Bool) (s : Work) :
    (memWrite v wf s).proc = s.proc := by
  cases wf <;> simp [memWrite]
@[simp] theorem memWrite_phase (v : Word16) (wf : Bool) (s : Work) :
    (memWrite v wf s).phase = s.phase := by
  cases wf <;> simp [memWrite]
@[simp] theorem memWrite_tmr (v : Word16) (wf : Bool) (s : Work) :
    (memWrite v wf s).tmr = s.tmr := by
  cases wf <;> simp [memWrite]
@[simp] theorem memWrite_out (v : Word16) (wf : Bool) (s : Work) :
    (memWrite v wf s).out = v := by
  cases wf <;> simp [memWrite]
@[simp] theorem memWrite_port (v : Word16) (wf : Bool) (s : Work) :
    (memWrite v wf s).port = v := by
  cases wf <;> simp [memWrite]
@[simp] theorem memWrite_events (v : Word16) (wf : Bool) (s : Work) :
    (memWrite v wf s).events = s.events ++ .wr v :: if wf then [.log .wr] else [] := by
  cases wf <;> simp [memWrite]

/-! ### assertFront -/

@[simp] theorem assertFront_acc (p : Params) (b : Button) (wf : Bool) (s : Work) :
    (assertFront p b wf s).acc = s.acc := by
  simp [assertFront]
@[simp] theorem assertFront_wcnt (p : Params) (b : Button) (wf : Bool) (s : Work) :
    (assertFront p b wf s).wcnt = s.wcnt := by
  simp [assertFront]
@[simp] theorem assertFront_ds (p : Params) (b : Button) (wf : Bool) (s : Work) :
    (assertFront p b wf s).ds = s.ds := by
  simp [assertFront]
@[simp] theorem assertFront_q (p : Params) (b : Button) (wf : Bool) (s : Work) :
    (assertFront p b wf s).q = s.q := by
  simp [assertFront]
@[simp] theorem assertFront_proc (p : Params) (b : Button) (wf : Bool) (s : Work) :
    (assertFront p b wf s).proc = s.proc := by
  simp [assertFront]
@[simp] theorem assertFront_phase (p : Params) (b : Button) (wf : Bool) (s : Work) :
    (assertFront p b wf s).phase = .press := by
  simp [assertFront]
@[simp] theorem assertFront_tmr (p : Params) (b : Button) (wf : Bool) (s : Work) :
    (assertFront p b wf s).tmr = .armed (pressCycles p) := by
  simp [assertFront]
@[simp] theorem assertFront_out (p : Params) (b : Button) (wf : Bool) (s : Work) :
    (assertFront p b wf s).out = pressWord (btnBitOf p b) := by
  simp [assertFront]
@[simp] theorem assertFront_port (p : Params) (b : Button) (wf : Bool) (s : Work) :
    (assertFront p b wf s).port = pressWord (btnBitOf p b) := by
  simp [assertFront]
@[simp] theorem assertFront_events (p : Params) (b : Button) (wf : Bool) (s : Work) :
    (assertFront p b wf s).events =
      s.events ++ .wr (pressWord (btnBitOf p b)) :: if wf then [.log .wr] else [] := by
  simp [assertFront]

/-! ### clearWindow -/

@[simp] theorem clearWindow_acc (s : Work) :
    (clearWindow s).acc = gridOf fun _ _ => 0 := rfl
@[simp] theorem clearWindow_wcnt (s : Work) :
    (clearWindow s).wcnt = 0 := rfl
@[simp] theorem clearWindow_ds (s : Work) :
    (clearWindow s).ds = s.ds := rfl
@[simp] theorem clearWindow_q (s : Work) :
    (clearWindow s).q = s.q := rfl
@[simp] theorem clearWindow_proc (s : Work) :
    (clearWindow s).proc = s.proc := rfl
@[simp] theorem clearWindow_phase (s : Work) :
    (clearWindow s).phase = s.phase := rfl
@[simp] theorem clearWindow_tmr (s : Work) :
    (clearWindow s).tmr = s.tmr := rfl
@[simp] theorem clearWindow_out (s : Work) :
    (clearWindow s).out = s.out := rfl
@[simp] theorem clearWindow_port (s : Work) :
    (clearWindow s).port = s.port := rfl
@[simp] theorem clearWindow_events (s : Work) :
    (clearWindow s).events = s.events := rfl

/-! ### countSample -/

@[simp] theorem countSample_acc (p : Params) (raw : Word16) (s : Work) :
    (countSample p raw s).acc = accum p raw s.acc := rfl
@[simp] theorem countSample_wcnt (p : Params) (raw : Word16) (s : Work) :
    (countSample p raw s).wcnt = s.wcnt + 1 := rfl
@[simp] theorem countSample_ds (p : Params) (raw : Word16) (s : Work) :
    (countSample p raw s).ds = s.ds := rfl
@[simp] theorem countSample_q (p : Params) (raw : Word16) (s : Work) :
    (countSample p raw s).q = s.q := rfl
@[simp] theorem countSample_proc (p : Params) (raw : Word16) (s : Work) :
    (countSample p raw s).proc = s.proc := rfl
@[simp] theorem countSample_phase (p : Params) (raw : Word16) (s : Work) :
    (countSample p raw s).phase = s.phase := rfl
@[simp] theorem countSample_tmr (p : Params) (raw : Word16) (s : Work) :
    (countSample p raw s).tmr = s.tmr := rfl
@[simp] theorem countSample_out (p : Params) (raw : Word16) (s : Work) :
    (countSample p raw s).out = s.out := rfl
@[simp] theorem countSample_port (p : Params) (raw : Word16) (s : Work) :
    (countSample p raw s).port = s.port := rfl
@[simp] theorem countSample_events (p : Params) (raw : Word16) (s : Work) :
    (countSample p raw s).events = s.events := rfl

/-! ### notifyStep -/

@[simp] theorem notifyStep_acc (changed tchg : Bool) (s : Work) :
    (notifyStep changed tchg s).acc = s.acc := by
  cases changed <;> cases tchg <;> simp [notifyStep]
@[simp] theorem notifyStep_wcnt (changed tchg : Bool) (s : Work) :
    (notifyStep changed tchg s).wcnt = s.wcnt := by
  cases changed <;> cases tchg <;> simp [notifyStep]
@[simp] theorem notifyStep_ds (changed tchg : Bool) (s : Work) :
    (notifyStep changed tchg s).ds = s.ds := by
  cases changed <;> cases tchg <;> simp [notifyStep]
@[simp] theorem notifyStep_q (changed tchg : Bool) (s : Work) :
    (notifyStep changed tchg s).q = s.q := by
  cases changed <;> cases tchg <;> simp [notifyStep]
@[simp] theorem notifyStep_proc (changed tchg : Bool) (s : Work) :
    (notifyStep changed tchg s).proc = s.proc := by
  cases changed <;> cases tchg <;> simp [notifyStep]
@[simp] theorem notifyStep_phase (changed tchg : Bool) (s : Work) :
    (notifyStep changed tchg s).phase = s.phase := by
  cases changed <;> cases tchg <;> simp [notifyStep]
@[simp] theorem notifyStep_tmr (changed tchg : Bool) (s : Work) :
    (notifyStep changed tchg s).tmr = s.tmr := by
  cases changed <;> cases tchg <;> simp [notifyStep]
@[simp] theorem notifyStep_out (changed tchg : Bool) (s : Work) :
    (notifyStep changed tchg s).out = s.out := by
  cases changed <;> cases tchg <;> simp [notifyStep]
@[simp] theorem notifyStep_port (changed tchg : Bool) (s : Work) :
    (notifyStep changed tchg s).port = s.port := by
  cases changed <;> cases tchg <;> simp [notifyStep]
@[simp] theorem notifyStep_events (changed tchg : Bool) (s : Work) :
    (notifyStep changed tchg s).events = s.events ++
      ((if changed then [.notify s.ds.speed s.ds.osc s.ds.mode] else []) ++
        if tchg then [.timerText s.ds.timer] else []) := by
  cases changed <;> cases tchg <;> simp [notifyStep]

/-! ### onBlock -/

theorem onBlock_next {op : Params → Work → Host.Outcome Work Fault Refusal} {s : State} {w : Work}
    (h : op s.params s.toWork = .next w) : onBlock op s = .next { s with toWork := w } := by
  simp [onBlock, h]

/-- What an operation of the block can do in the machine: nothing to the configuration or the host's moves. -/
theorem onBlock_cases {op : Params → Work → Host.Outcome Work Fault Refusal} {s t : State}
    (h : onBlock op s = .next t) : ∃ w, op s.params s.toWork = .next w ∧ t = { s with toWork := w } := by
  unfold onBlock at h
  split at h
  · rename_i w hw; cases h; exact ⟨w, hw, rfl⟩
  · cases h
  · cases h

theorem onBlock_fault {op : Params → Work → Host.Outcome Work Fault Refusal} {s : State} {f : Fault} :
    onBlock op s = .fault f ↔ op s.params s.toWork = .fault f := by
  unfold onBlock
  split <;> simp [*]

theorem onBlock_refused {op : Params → Work → Host.Outcome Work Fault Refusal} {s : State} {r : Refusal} :
    onBlock op s = .refused r ↔ op s.params s.toWork = .refused r := by
  unfold onBlock
  split <;> simp [*]

/-! ### beginStep -/

@[simp] theorem beginStep_acc (moves : List HostMove) (s : State) :
    (beginStep moves s).acc = s.acc := rfl
@[simp] theorem beginStep_wcnt (moves : List HostMove) (s : State) :
    (beginStep moves s).wcnt = s.wcnt := rfl
@[simp] theorem beginStep_ds (moves : List HostMove) (s : State) :
    (beginStep moves s).ds = s.ds := rfl
@[simp] theorem beginStep_q (moves : List HostMove) (s : State) :
    (beginStep moves s).q = s.q := rfl
@[simp] theorem beginStep_proc (moves : List HostMove) (s : State) :
    (beginStep moves s).proc = s.proc := rfl
@[simp] theorem beginStep_phase (moves : List HostMove) (s : State) :
    (beginStep moves s).phase = s.phase := rfl
@[simp] theorem beginStep_tmr (moves : List HostMove) (s : State) :
    (beginStep moves s).tmr = s.tmr := rfl
@[simp] theorem beginStep_out (moves : List HostMove) (s : State) :
    (beginStep moves s).out = s.out := rfl
@[simp] theorem beginStep_port (moves : List HostMove) (s : State) :
    (beginStep moves s).port = s.port := rfl
@[simp] theorem beginStep_params (moves : List HostMove) (s : State) :
    (beginStep moves s).params = s.params := rfl
@[simp] theorem beginStep_inbox (moves : List HostMove) (s : State) :
    (beginStep moves s).inbox = moves := rfl
@[simp] theorem beginStep_events (moves : List HostMove) (s : State) :
    (beginStep moves s).events = [] := rfl

/-! ### resetBlock -/

@[simp] theorem resetBlock_acc (s : State) : (resetBlock s).acc = gridOf fun _ _ => 0 := rfl
@[simp] theorem resetBlock_wcnt (s : State) : (resetBlock s).wcnt = 0 := rfl
@[simp] theorem resetBlock_ds (s : State) : (resetBlock s).ds = s.params.restore.getD unknownDs := rfl
@[simp] theorem resetBlock_q (s : State) : (resetBlock s).q = [] := rfl
@[simp] theorem resetBlock_proc (s : State) : (resetBlock s).proc = false := rfl
@[simp] theorem resetBlock_phase (s : State) : (resetBlock s).phase = .idle := rfl
@[simp] theorem resetBlock_tmr (s : State) : (resetBlock s).tmr = .idle := rfl
@[simp] theorem resetBlock_out (s : State) : (resetBlock s).out = 0xFFFF := rfl
@[simp] theorem resetBlock_port (s : State) : (resetBlock s).port = s.port := rfl
@[simp] theorem resetBlock_params (s : State) : (resetBlock s).params = s.params := rfl
@[simp] theorem resetBlock_inbox (s : State) : (resetBlock s).inbox = s.inbox := rfl
@[simp] theorem resetBlock_events (s : State) : (resetBlock s).events = [] := rfl

end Sys2Proof.Machine
end

