-- ==== Sys2Proof/Laws/Ops.lean ====
section
/-! SUPPORT. For each shared operation one lemma that says everything it can do. -/

namespace Sys2Proof.Machine

/-! ### The grid -/

@[simp] theorem gridGet_gridOf {α : Type} (f : Row → Col → α) (r : Row) (c : Col) :
    gridGet (gridOf f) r c = f r c := by cases r <;> cases c <;> rfl

theorem grid_ext {α : Type} {g h : Grid α} (eq : ∀ r c, gridGet g r c = gridGet h r c) : g = h := by
  have := eq .r0 .c0; have := eq .r0 .c1; have := eq .r0 .c2
  have := eq .r1 .c0; have := eq .r1 .c1; have := eq .r1 .c2
  have := eq .r2 .c0; have := eq .r2 .c1; have := eq .r2 .c2
  have := eq .r3 .c0; have := eq .r3 .c1; have := eq .r3 .c2
  cases g; cases h; simp_all [gridGet]

theorem work_ext {s t : Work} (acc : s.acc = t.acc) (wcnt : s.wcnt = t.wcnt) (ds : s.ds = t.ds)
    (q : s.q = t.q) (proc : s.proc = t.proc) (phase : s.phase = t.phase) (tmr : s.tmr = t.tmr)
    (out : s.out = t.out) (port : s.port = t.port) (events : s.events = t.events) : s = t := by
  obtain ⟨⟨⟩, _⟩ := s; obtain ⟨⟨⟩, _⟩ := t; simp_all

theorem state_ext {s t : State} (acc : s.acc = t.acc) (wcnt : s.wcnt = t.wcnt) (ds : s.ds = t.ds)
    (q : s.q = t.q) (proc : s.proc = t.proc) (phase : s.phase = t.phase) (tmr : s.tmr = t.tmr)
    (out : s.out = t.out) (port : s.port = t.port) (events : s.events = t.events) (params : s.params = t.params)
    (inbox : s.inbox = t.inbox) : s = t := by
  obtain ⟨_, _, _⟩ := s; obtain ⟨_, _, _⟩ := t
  have := work_ext acc wcnt ds q proc phase tmr out port events
  simp_all

/-! ### The Sequencer -/

/-- The events of one write (20 R34, 41 R103). -/
def writeEvents (v : Word16) (wf : Bool) : List Event := .wr v :: if wf then [.log .wr] else []

theorem assertFront_eq (p : Params) (b : Button) (wf : Bool) (s : Work) :
    assertFront p b wf s =
      { s with
        phase := .press
        tmr := .armed (pressCycles p)
        out := pressWord (btnBitOf p b)
        port := pressWord (btnBitOf p b)
        events := s.events ++ writeEvents (pressWord (btnBitOf p b)) wf } := by
  apply work_ext <;> simp [writeEvents]

theorem startDrain_cons (p : Params) (b : Button) (rest : List Button) (wf : Bool) (s : Work) :
    startDrain p (b :: rest) wf s =
      { s with
        q := b :: rest
        proc := true
        phase := .press
        tmr := .armed (pressCycles p)
        out := pressWord (btnBitOf p b)
        port := pressWord (btnBitOf p b)
        events := s.events ++ writeEvents (pressWord (btnBitOf p b)) wf } := by
  simp [startDrain, assertFront_eq]

@[simp] theorem startDrain_nil (p : Params) (wf : Bool) (s : Work) : startDrain p [] wf s = s := rfl

theorem releaseWord_eq : releaseWord = 0xFFFF := by decide

/-- `RELEASE` of the last symbol (41 R101). -/
theorem releaseStep_last {s : Work} {b : Button} (p : Params) (wf : Bool) (hq : s.q = [b]) :
    releaseStep p wf s = .next
      { s with
        q := []
        proc := false
        phase := .idle
        out := 0xFFFF
        port := 0xFFFF
        events := s.events ++ writeEvents 0xFFFF wf } := by
  simp only [releaseStep, hq, afterRelease]
  congr 1
  apply work_ext <;> simp [writeEvents, releaseWord_eq]

/-- `RELEASE` with symbols left (41 R101). -/
theorem releaseStep_more {s : Work} {b c : Button} {rest : List Button} (p : Params) (wf : Bool)
    (hq : s.q = b :: c :: rest) :
    releaseStep p wf s = .next
      { s with
        q := c :: rest
        phase := .gap
        tmr := .armed (gapCycles p)
        out := 0xFFFF
        port := 0xFFFF
        events := s.events ++ writeEvents 0xFFFF wf } := by
  simp only [releaseStep, hq, afterRelease]
  congr 1
  apply work_ext <;> simp [writeEvents, releaseWord_eq]

theorem assertStep_cons {s : Work} {b : Button} {rest : List Button} (p : Params) (wf : Bool)
    (hq : s.q = b :: rest) : assertStep p wf s = .next (assertFront p b wf s) := by
  simp [assertStep, hq]

/-- What an answered release has done. -/
theorem releaseStep_cases {p : Params} {s t : Work} {wf : Bool} (h : releaseStep p wf s = .next t) :
    (∃ b, s.q = [b] ∧ t = { s with q := [], proc := false, phase := .idle, out := 0xFFFF, port := 0xFFFF,
                                   events := s.events ++ writeEvents 0xFFFF wf }) ∨
    (∃ b c rest, s.q = b :: c :: rest ∧
      t = { s with q := c :: rest, phase := .gap, tmr := .armed (gapCycles p), out := 0xFFFF, port := 0xFFFF,
                   events := s.events ++ writeEvents 0xFFFF wf }) := by
  match hq : s.q with
  | [] => simp [releaseStep, hq] at h
  | [b] => rw [releaseStep_last p wf hq] at h; cases h; exact .inl ⟨b, rfl, rfl⟩
  | b :: c :: rest =>
    rw [releaseStep_more p wf hq] at h; cases h; exact .inr ⟨b, c, rest, rfl, rfl⟩

/-- What an answered assert has done. -/
theorem assertStep_cases {p : Params} {s t : Work} {wf : Bool} (h : assertStep p wf s = .next t) :
    ∃ b rest, s.q = b :: rest ∧ t = assertFront p b wf s := by
  match hq : s.q with
  | [] => simp [assertStep, hq] at h
  | b :: rest => rw [assertStep_cons p wf hq] at h; cases h; exact ⟨b, rest, rfl, rfl⟩

/-- What an answered `TEXP` has done. -/
theorem delayExpiry_cases {p : Params} {s t : Work} {wf : Bool} (h : delayExpiry p wf s = .next t) :
    isArmed s.tmr = true ∧
    ((s.phase = .press ∧ releaseStep p wf (disarm s) = .next t) ∨
     (s.phase = .gap ∧ assertStep p wf (disarm s) = .next t) ∨
     (s.phase = .idle ∧ t = disarm s)) := by
  unfold delayExpiry at h
  split at h
  · rename_i armed
    refine ⟨armed, ?_⟩
    unfold delayElapsed at h
    split at h
    · exact .inl ⟨‹_›, h⟩
    · exact .inr (.inl ⟨‹_›, h⟩)
    · cases h; exact .inr (.inr ⟨‹_›, rfl⟩)
  · cases h

/-- What an answered press word has done. -/
theorem pressLine_cases {p : Params} {s t : Work} {line : Fin 8} {wf : Bool}
    (h : pressLine p line wf s = .next t) :
    ∃ b rest, s.q = b :: rest ∧ btnBitOf p b = line ∧ s.phase ≠ .press ∧ t = assertFront p b wf s := by
  unfold pressLine at h
  split at h
  · cases h
  · rename_i b rest hq
    split at h
    · rename_i due; cases h; exact ⟨b, rest, hq, due.1, due.2, rfl⟩
    · cases h

/-- What an answered release word has done. -/
theorem releaseLine_cases {p : Params} {s t : Work} {wf : Bool} (h : releaseLine p wf s = .next t) :
    s.phase = .press ∧ releaseStep p wf (disarm s) = .next t := by
  unfold releaseLine at h
  split at h
  · exact ⟨‹_›, h⟩
  · cases h

/-- What a drain's start can do. -/
theorem startDrain_cases (p : Params) (n : List Button) (wf : Bool) (s : Work) :
    (n = [] ∧ startDrain p n wf s = s) ∨
    (∃ b rest, n = b :: rest ∧ startDrain p n wf s = assertFront p b wf { s with q := n, proc := true }) := by
  cases n with
  | nil => exact .inl ⟨rfl, rfl⟩
  | cons b rest => exact .inr ⟨b, rest, rfl, rfl⟩

/-- What `CTRL` can do (41 R95). -/
theorem control_cases (p : Params) (wf : Bool) (req : CtrlReq) (s : Work) :
    (s.proc = true ∧ control p wf req s = emit (.dropped .busy) s) ∨
    (s.proc = false ∧ noState s.ds = true ∧ control p wf req s = emit (.dropped .noState) s) ∨
    (s.proc = false ∧ noState s.ds = false ∧
      control p wf req s = startDrain p (requestSymbols p s.ds req) wf s) := by
  unfold control
  cases hp : s.proc <;> cases hn : noState s.ds <;> simp

/-- What `TADV` can do (41 R98). -/
theorem advanceTimer_cases (p : Params) (wf : Bool) (s : Work) :
    (s.proc = true ∧ advanceTimer p wf s = emit (.dropped .busy) s) ∨
    (s.proc = false ∧ advanceTimer p wf s = startDrain p [.timer] wf s) := by
  unfold advanceTimer
  cases hp : s.proc <;> simp

/-! ### The Decoder -/

/-- What the comparison of a window end emits (40 R81 to R83). -/
def windowEvents (stored decoded : Decoded) : List Event :=
  (if changedFlag stored decoded then [.notify decoded.speed decoded.osc decoded.mode] else []) ++
  (if timerFlag stored decoded then [.timerText decoded.timer] else [])

theorem finalize_eq (p : Params) (s : Work) :
    finalize p s =
      { s with
        acc := gridOf fun _ _ => 0
        wcnt := 0
        ds := decodeWindow p (thresh s.acc)
        events := s.events ++ windowEvents s.ds (decodeWindow p (thresh s.acc)) } := by
  apply work_ext <;> simp [finalize, windowEvents]

/-- What a poll can do (40 R70). -/
theorem pollSample_cases (p : Params) (raw : Word16) (s : Work) :
    (s.proc = true ∧ pollSample p raw s = s) ∨
    (s.proc = false ∧ s.wcnt + 1 ≠ Config.window ∧ pollSample p raw s = countSample p raw s) ∨
    (s.proc = false ∧ s.wcnt + 1 = Config.window ∧ pollSample p raw s = finalize p (countSample p raw s)) := by
  unfold pollSample
  cases hp : s.proc
  · by_cases h : (countSample p raw s).wcnt = Config.window
    · exact .inr (.inr ⟨rfl, h, by simp only [h]; rfl⟩)
    · exact .inr (.inl ⟨rfl, h, by simp only [h]; rfl⟩)
  · exact .inl ⟨rfl, rfl⟩

/-- What a failed poll can do (40 R69). -/
theorem pollFailed_cases (s : Work) :
    (s.proc = true ∧ pollFailed s = s) ∨ (s.proc = false ∧ pollFailed s = raise .rd s) := by
  unfold pollFailed
  cases hp : s.proc <;> simp

/-- A decoded window holds no sentinel (10 R18). -/
theorem decodeWindow_real (p : Params) (lit : Grid Bool) : (decodeWindow p lit).real := by
  refine ⟨?_, ?_, ?_, by simp [decodeWindow]⟩
  · simp only [decodeWindow, decodeSpeed]; split_ifs <;> simp
  · simp only [decodeWindow, decodeOsc]; split_ifs <;> simp
  · have : ∀ (order : List ModeCell) (m : Mode), m ≠ .invalid →
        order.foldl (fun m cell => if modeLit lit cell then modeOfCell cell else m) m ≠ .invalid := by
      intro order
      induction order with
      | nil => intro m h; exact h
      | cons cell rest ih =>
        intro m h
        refine ih _ ?_
        dsimp only
        split_ifs
        · cases cell <;> simp [modeOfCell]
        · exact h
    exact this _ _ (by simp)

/-! ### The clock cycle -/

/-- While a drain runs a cycle's requests are dropped and its poll is ignored (70 R148). -/
theorem requestsOf_busy (p : Params) (pins : Pins) {s : Work} (busy : s.proc = true) :
    requestsOf p pins s =
      { s with
        events := s.events ++ ((if pins.ctrlValid then [.dropped .busy] else []) ++
          if pins.tadvValid then [.dropped .busy] else []) } := by
  cases hc : pins.ctrlValid <;> cases ht : pins.tadvValid <;>
    simp [requestsOf, control, advanceTimer, pollSample, pollFailed, busy, hc, ht, emit]

/-- What a cycle of the block out of reset can do (70 R147, R148). -/
theorem runCycle_cases (p : Params) (pins : Pins) (s : Work) :
    (delayDue s.tmr = true ∧ runCycle p pins s = delayExpiry p pins.wrFail (requestsOf p pins s)) ∨
    (delayDue s.tmr = false ∧ isArmed s.tmr = true ∧
      runCycle p pins s =
        .next { requestsOf p pins s with tmr := tickDelay (requestsOf p pins s).tmr }) ∨
    (delayDue s.tmr = false ∧ isArmed s.tmr = false ∧
      runCycle p pins s = .next (requestsOf p pins s)) := by
  unfold runCycle
  cases hd : delayDue s.tmr <;> cases ha : isArmed s.tmr <;> simp

/-- A clock cycle out of reset with the static pin as configured. -/
theorem clockCycle_running {pins : Pins} {s : State} (running : RunningPins pins s) :
    clockCycle pins s = onBlock (fun p w => runCycle p pins w) s := by
  simp [clockCycle, running.1, running.2]

/-! ### The instructions by kind -/

/-- A sample pattern is a poll of its sample (30 R66). -/
theorem exec_litInstr (r : Row) (c : Col) (raw : Word16) (s : State) :
    exec (litInstr r c raw) s = .next { s with toWork := pollSample s.params raw s.toWork } := by
  cases r <;> cases c <;> rfl

theorem exec_pressInstr (line : Fin 8) (wf : Bool) (s : State) :
    exec (pressInstr line wf) s = onBlock (fun p w => pressLine p line wf w) s := by
  match line with
  | 0 | 1 | 2 | 3 | 4 | 5 | 6 | 7 => rfl

end Sys2Proof.Machine
end

