-- ==== Sys2Proof/Laws/Exec.lean ====
section
/-! SUPPORT. Once and for all what an answered instruction has done, whichever it was. -/

namespace Sys2Proof.Machine

/-- What `exec` can answer with a next state, as the operation of the block it was: every invariant and frame is
a case split on this. -/
inductive Did (i : Instr) (p : Params) (s t : Work) : Prop where
  | poll (raw : Word16) (kind : i = .pollOk raw ∨ isPattern i = true) (eq : t = pollSample p raw s)
  | pollFail (kind : i = .pollFail) (eq : t = pollFailed s)
  | ctrl (wf : Bool) (req : CtrlReq) (kind : i = .ctrl wf req) (eq : t = control p wf req s)
  | tadv (wf : Bool) (kind : i = .tadv wf) (eq : t = advanceTimer p wf s)
  | texp (wf : Bool) (kind : i = .texp wf) (eq : delayExpiry p wf s = .next t)
  | press (line : Fin 8) (wf : Bool) (kind : i = pressInstr line wf) (eq : pressLine p line wf s = .next t)
  | release (wf : Bool) (kind : i = .release wf) (eq : releaseLine p wf s = .next t)

/-- No instruction touches the configuration or the host's moves. -/
theorem exec_did {i : Instr} {s t : State} (h : exec i s = .next t) :
    ∃ w, t = { s with toWork := w } ∧ Did i s.params s.toWork w := by
  cases i with
  | pollOk raw => cases h; exact ⟨_, rfl, .poll raw (.inl rfl) rfl⟩
  | pollFail => cases h; exact ⟨_, rfl, .pollFail rfl rfl⟩
  | ctrl wf req => cases h; exact ⟨_, rfl, .ctrl wf req rfl rfl⟩
  | tadv wf => cases h; exact ⟨_, rfl, .tadv wf rfl rfl⟩
  | texp wf => simp only [exec] at h; obtain ⟨w, e, rfl⟩ := onBlock_cases h; exact ⟨w, rfl, .texp wf rfl e⟩
  | pressB0 wf => simp only [exec] at h; obtain ⟨w, e, rfl⟩ := onBlock_cases h; exact ⟨w, rfl, .press 0 wf rfl e⟩
  | pressB1 wf => simp only [exec] at h; obtain ⟨w, e, rfl⟩ := onBlock_cases h; exact ⟨w, rfl, .press 1 wf rfl e⟩
  | pressB2 wf => simp only [exec] at h; obtain ⟨w, e, rfl⟩ := onBlock_cases h; exact ⟨w, rfl, .press 2 wf rfl e⟩
  | pressB3 wf => simp only [exec] at h; obtain ⟨w, e, rfl⟩ := onBlock_cases h; exact ⟨w, rfl, .press 3 wf rfl e⟩
  | pressB4 wf => simp only [exec] at h; obtain ⟨w, e, rfl⟩ := onBlock_cases h; exact ⟨w, rfl, .press 4 wf rfl e⟩
  | pressB5 wf => simp only [exec] at h; obtain ⟨w, e, rfl⟩ := onBlock_cases h; exact ⟨w, rfl, .press 5 wf rfl e⟩
  | pressB6 wf => simp only [exec] at h; obtain ⟨w, e, rfl⟩ := onBlock_cases h; exact ⟨w, rfl, .press 6 wf rfl e⟩
  | pressB7 wf => simp only [exec] at h; obtain ⟨w, e, rfl⟩ := onBlock_cases h; exact ⟨w, rfl, .press 7 wf rfl e⟩
  | release wf => simp only [exec] at h; obtain ⟨w, e, rfl⟩ := onBlock_cases h; exact ⟨w, rfl, .release wf rfl e⟩
  | litR0C0 raw | litR0C1 raw | litR0C2 raw | litR1C0 raw | litR1C1 raw | litR1C2 raw
  | litR2C0 raw | litR2C1 raw | litR2C2 raw | litR3C0 raw | litR3C1 raw | litR3C2 raw =>
    cases h; exact ⟨_, rfl, .poll raw (.inr rfl) rfl⟩

end Sys2Proof.Machine
end

