-- ==== Sys2Proof/Laws/PerInstr.lean ====
section
/-! SUPPORT. Statements made per instruction: how many bytes stand for it on its port. -/

namespace Sys2Proof.Laws

/-- The bytes of a value on each port: an operation word has 24 bits (30 R59), a sample 2 bytes (20 R33), an
output word 2 bytes and the answer's (20 R34, log 3). -/
def portBytes : Port → Nat
  | .opw => 3
  | .led => 2
  | .btn => 3

/-- The encoding has its port's number of bytes. -/
def EncodedLength.Statement (i : Instr) : Prop :=
  (encode i).bytes.length = portBytes (encode i).port

theorem EncodedLength.pollOk (raw : Word16) : EncodedLength.Statement (.pollOk raw) := rfl
theorem EncodedLength.pollFail : EncodedLength.Statement .pollFail := rfl
theorem EncodedLength.ctrl (wf : Bool) (req : CtrlReq) : EncodedLength.Statement (.ctrl wf req) := rfl
theorem EncodedLength.tadv (wf : Bool) : EncodedLength.Statement (.tadv wf) := rfl
theorem EncodedLength.texp (wf : Bool) : EncodedLength.Statement (.texp wf) := rfl
theorem EncodedLength.pressB0 (wf : Bool) : EncodedLength.Statement (.pressB0 wf) := rfl
theorem EncodedLength.pressB1 (wf : Bool) : EncodedLength.Statement (.pressB1 wf) := rfl
theorem EncodedLength.pressB2 (wf : Bool) : EncodedLength.Statement (.pressB2 wf) := rfl
theorem EncodedLength.pressB3 (wf : Bool) : EncodedLength.Statement (.pressB3 wf) := rfl
theorem EncodedLength.pressB4 (wf : Bool) : EncodedLength.Statement (.pressB4 wf) := rfl
theorem EncodedLength.pressB5 (wf : Bool) : EncodedLength.Statement (.pressB5 wf) := rfl
theorem EncodedLength.pressB6 (wf : Bool) : EncodedLength.Statement (.pressB6 wf) := rfl
theorem EncodedLength.pressB7 (wf : Bool) : EncodedLength.Statement (.pressB7 wf) := rfl
theorem EncodedLength.release (wf : Bool) : EncodedLength.Statement (.release wf) := rfl
theorem EncodedLength.litR0C0 (raw : Word16) : EncodedLength.Statement (.litR0C0 raw) := rfl
theorem EncodedLength.litR0C1 (raw : Word16) : EncodedLength.Statement (.litR0C1 raw) := rfl
theorem EncodedLength.litR0C2 (raw : Word16) : EncodedLength.Statement (.litR0C2 raw) := rfl
theorem EncodedLength.litR1C0 (raw : Word16) : EncodedLength.Statement (.litR1C0 raw) := rfl
theorem EncodedLength.litR1C1 (raw : Word16) : EncodedLength.Statement (.litR1C1 raw) := rfl
theorem EncodedLength.litR1C2 (raw : Word16) : EncodedLength.Statement (.litR1C2 raw) := rfl
theorem EncodedLength.litR2C0 (raw : Word16) : EncodedLength.Statement (.litR2C0 raw) := rfl
theorem EncodedLength.litR2C1 (raw : Word16) : EncodedLength.Statement (.litR2C1 raw) := rfl
theorem EncodedLength.litR2C2 (raw : Word16) : EncodedLength.Statement (.litR2C2 raw) := rfl
theorem EncodedLength.litR3C0 (raw : Word16) : EncodedLength.Statement (.litR3C0 raw) := rfl
theorem EncodedLength.litR3C1 (raw : Word16) : EncodedLength.Statement (.litR3C1 raw) := rfl
theorem EncodedLength.litR3C2 (raw : Word16) : EncodedLength.Statement (.litR3C2 raw) := rfl

end Sys2Proof.Laws
end

