-- ==== Sys2Proof/Tests/Slice0.lean ====
section
/-! SUPPORT. The model's own tests: the well-formedness smoke, words written out from the spec's encodings, one
step per instruction with results taken from 95_test_vectors.md, and for every statement with hypotheses a
witness that meets them. -/

namespace Sys2Proof.Machine

/-! ### Small states -/

/-- A running block in SAMPLING with the given decoded state and the rest as after reset. -/
def idleAt (sp : Speed) (os : Osc) (mo : Mode) : State :=
  { State.reset with ds := ⟨sp, os, mo, .mask 0⟩ }

/-- A drain in phase PRESS with the given queue, its word on the port. -/
def pressingAt (b : Button) (rest : List Button) : State :=
  { State.reset with
    q := b :: rest, proc := true, phase := .press, tmr := .armed 50,
    out := pressWord (btnBitOf Params.default b), port := pressWord (btnBitOf Params.default b) }

/-- A drain in phase GAP with the given queue. -/
def gapAt (q : List Button) : State :=
  { State.reset with q := q, proc := true, phase := .gap, tmr := .armed 50 }

/-- The state the buttons OFF and TIMER stand at positions 6 and 7 in, for the two press words the default
map never uses. -/
def gapElsewhere (q : List Button) : State :=
  { gapAt q with params := { Params.default with btnBit := ⟨6, 7, 2, 3, 4, 5⟩ } }

/-- A window one sample short of its end, cell (0,2) counted twice (vectors B-D18, B-D19). -/
def lastSample : State :=
  { State.reset with
    ds := ⟨.off, .off, .off, .mask 0⟩, wcnt := 31,
    acc := { State.reset.acc with r0c2 := 2 } }

/-- The next state, if there is one. -/
def after (o : Host.Outcome State Fault Refusal) : Option State :=
  match o with
  | .next t => some t
  | _ => none

/-- The counter of a cell after an outcome. -/
def countAfter (r : Row) (c : Col) (o : Host.Outcome State Fault Refusal) : Option Count :=
  (after o).map fun t => gridGet t.acc r c

/-- The pins of a quiet cycle. -/
def quiet : Pins := ⟨false, false, false, 0, false, 0, false, false, true⟩

/-! ### Well-formedness: an ill-formed term for each check (30 R51) -/

theorem test_illformed_patterns_refused :
    wellFormed (.litR0C0 0x0E) = false ∧ wellFormed (.litR0C1 0x14) = false ∧
    wellFormed (.litR0C2 0x18) = false ∧ wellFormed (.litR1C0 0x22) = false ∧
    wellFormed (.litR1C1 0x1A) = false ∧ wellFormed (.litR1C2 0x28) = false ∧
    wellFormed (.litR2C0 0x42) = false ∧ wellFormed (.litR2C1 0x2A) = false ∧
    wellFormed (.litR2C2 0x48) = false ∧ wellFormed (.litR3C0 0x82) = false ∧
    wellFormed (.litR3C1 0x84) = false ∧ wellFormed (.litR3C2 0xFF) = false := by decide

/-! ### Words written out from the encodings -/

/-- OPW bit by bit (30 R59): opc, wf, zeros, opd. -/
theorem test_decode_operations :
    decodeTableWord 24 0b000000000000000000101010 = some (.pollOk 0x2A) ∧
    decodeTableWord 24 0b001000000000000000000000 = some .pollFail ∧
    decodeTableWord 24 0b010000000000000000011100 = some (.ctrl false ⟨none, some .high, none, none⟩) ∧
    decodeTableWord 24 0b011000000000000000000000 = some (.tadv false) ∧
    decodeTableWord 24 0b100000000000000000000000 = some (.texp false) ∧
    decodeTableWord 24 0b100100000000000000000000 = some (.texp true) ∧
    decodeTableWord 24 0b101000000000000000000000 = none := by decide

/-- CTRLW bit by bit (30 R60): mode, M, o, O, speed, S, p, P; vectors B-S13, B-S14, B-S15, B-S23, B-S27. -/
theorem test_decode_requests :
    decodeTableWord 24 0x400001 = some (.ctrl false ⟨some false, none, none, none⟩) ∧
    decodeTableWord 24 0x40039D = some (.ctrl false ⟨some false, some .high, none, some .sleep⟩) ∧
    decodeTableWord 24 0x400021 = some (.ctrl false ⟨some false, none, some false, none⟩) ∧
    decodeTableWord 24 0x4003FF = some (.ctrl false ⟨some true, some .high, some true, some .sleep⟩) ∧
    decodeTableWord 24 0x400004 = some (.ctrl false ⟨none, some .reserved, none, none⟩) ∧
    decodeTableWord 24 0x50001C = some (.ctrl true ⟨none, some .high, none, none⟩) := by decide

/-- OUTW (30 R56, vectors B-O). -/
theorem test_decode_output_words :
    decodeTableWord 16 0xFFFE = some (.pressB0 false) ∧ decodeTableWord 16 0xFFFD = some (.pressB1 false) ∧
    decodeTableWord 16 0xFFFB = some (.pressB2 false) ∧ decodeTableWord 16 0xFFF7 = some (.pressB3 false) ∧
    decodeTableWord 16 0xFFEF = some (.pressB4 false) ∧ decodeTableWord 16 0xFFDF = some (.pressB5 false) ∧
    decodeTableWord 16 0xFFBF = some (.pressB6 false) ∧ decodeTableWord 16 0xFF7F = some (.pressB7 false) ∧
    decodeTableWord 16 0xFFFF = some (.release false) := by decide

/-- RAW, one cell lit (vectors B-E). -/
theorem test_decode_patterns :
    decodeTableWord 16 0x1C = some (.litR0C0 0x1C) ∧ decodeTableWord 16 0x1A = some (.litR0C1 0x1A) ∧
    decodeTableWord 16 0x16 = some (.litR0C2 0x16) ∧ decodeTableWord 16 0x2C = some (.litR1C0 0x2C) ∧
    decodeTableWord 16 0x2A = some (.litR1C1 0x2A) ∧ decodeTableWord 16 0x26 = some (.litR1C2 0x26) ∧
    decodeTableWord 16 0x4C = some (.litR2C0 0x4C) ∧ decodeTableWord 16 0x4A = some (.litR2C1 0x4A) ∧
    decodeTableWord 16 0x46 = some (.litR2C2 0x46) ∧ decodeTableWord 16 0x8C = some (.litR3C0 0x8C) ∧
    decodeTableWord 16 0x8A = some (.litR3C1 0x8A) ∧ decodeTableWord 16 0x86 = some (.litR3C2 0x86) ∧
    decodeTableWord 16 0x0E = some (.pollOk 0x0E) := by decide

/-- Lengths and values that are no transfer (20 R38, 30 R62 (6)). -/
theorem test_decode_rejects_by_name :
    decode ⟨.opw, [0, 0]⟩ = .error (.wrongLength .opw 2) ∧
    decode ⟨.led, [0, 0, 0]⟩ = .error (.wrongLength .led 3) ∧
    decode ⟨.btn, [0xFE, 0x7F]⟩ = .error (.notAnOutputWord 0x7FFE) ∧
    decode ⟨.btn, [0xFC, 0xFF]⟩ = .error (.notAnOutputWord 0xFFFC) ∧
    decode ⟨.led, [0x2A]⟩ = .ok .pollFail ∧
    decode ⟨.btn, [0xFC]⟩ = .error (.notAnOutputWord 0xFFFC) ∧
    decode ⟨.btn, [0xFE, 0xFF, 0, 0]⟩ = .error (.wrongLength .btn 4) := by decide

/-- 20 R38, R42: a write of one byte or of none is a failed write of the drain's word, logged, and the drain goes on
(vector B-S35). -/
theorem test_short_writes :
    (after (step { gapAt [.mode] with inbox := [.present ⟨.btn, [0xEF]⟩] })).map
      (fun t => (t.phase, t.out, t.events)) = some (.press, 0xFFEF, [.wr 0xFFEF, .log .wr]) ∧
    (after (step { gapAt [.mode] with inbox := [.present ⟨.btn, []⟩] })).map
      (fun t => (t.phase, t.out, t.events)) = some (.press, 0xFFEF, [.wr 0xFFEF, .log .wr]) ∧
    (after (step { pressingAt .timer [] with inbox := [.present ⟨.btn, []⟩] })).map
      (fun t => (t.phase, t.out, t.events)) = some (.idle, 0xFFFF, [.wr 0xFFFF, .log .wr]) ∧
    after (step { State.reset with inbox := [.present ⟨.btn, []⟩] }) = none := by decide

/-! ### The Decoder (vectors B-E, B-D) -/

theorem test_pollOk_counts_one_cell :
    countAfter .r1 .c1 (exec (.pollOk 0xAB2B) State.reset) = some 1 ∧
    countAfter .r1 .c0 (exec (.pollOk 0xAB2B) State.reset) = some 0 ∧
    (after (exec (.pollOk 0xAB2B) State.reset)).map (·.wcnt) = some 1 := by decide

/-- B-D18 and B-D19. -/
theorem test_pollOk_window_end :
    (after (exec (.pollOk 0x16) lastSample)).map (fun t => (t.ds, t.wcnt, t.events)) =
      some (⟨.off, .on, .off, .mask 0⟩, 0, [.notify .off .on .off]) ∧
    (after (exec (.pollOk 0x0E) lastSample)).map (fun t => (t.ds, t.wcnt, t.events)) =
      some (⟨.off, .off, .off, .mask 0⟩, 0, []) := by decide

/-- B-D14, B-D15, B-D17. -/
theorem test_pollFail :
    (after (exec .pollFail lastSample)).map (fun t => (t.wcnt, t.events)) = some (31, [.log .rd]) ∧
    (after (exec .pollFail (pressingAt .timer []))).map (·.events) = some [] := by decide

/-- B-D5, B-D6, B-D10, B-D12: the decodes of a verdict grid. -/
theorem test_decode_of_verdicts :
    (decodeWindow Params.default (gridOf fun _ _ => true)) = ⟨.low, .on, .sleep, .mask 15⟩ ∧
    (decodeSpeed (gridOf fun r c => decide (c = .c1 ∧ (r = .r0 ∨ r = .r1)))) = .medium ∧
    (decodeTimer (gridOf fun r c => decide (c = .c0 ∧ r ≠ .r3))) = 14 := by decide

/-- B-E: each pattern counts its cell and not the next. -/
theorem test_patterns_rows_0_1 :
    countAfter .r0 .c0 (exec (.litR0C0 0x1C) State.reset) = some 1 ∧
    countAfter .r0 .c1 (exec (.litR0C1 0x1A) State.reset) = some 1 ∧
    countAfter .r0 .c2 (exec (.litR0C2 0x16) State.reset) = some 1 ∧
    countAfter .r0 .c1 (exec (.litR0C2 0x16) State.reset) = some 0 ∧
    countAfter .r1 .c0 (exec (.litR1C0 0x2C) State.reset) = some 1 ∧
    countAfter .r1 .c1 (exec (.litR1C1 0x2A) State.reset) = some 1 ∧
    countAfter .r1 .c2 (exec (.litR1C2 0x26) State.reset) = some 1 := by decide

theorem test_patterns_rows_2_3 :
    countAfter .r2 .c0 (exec (.litR2C0 0x4C) State.reset) = some 1 ∧
    countAfter .r2 .c1 (exec (.litR2C1 0x4A) State.reset) = some 1 ∧
    countAfter .r2 .c2 (exec (.litR2C2 0x46) State.reset) = some 1 ∧
    countAfter .r3 .c0 (exec (.litR3C0 0x8C) State.reset) = some 1 ∧
    countAfter .r3 .c1 (exec (.litR3C1 0x8A) State.reset) = some 1 ∧
    countAfter .r3 .c2 (exec (.litR3C2 0x86) State.reset) = some 1 ∧
    countAfter .r2 .c2 (exec (.litR3C2 0x86) State.reset) = some 0 := by decide

/-! ### The Sequencer (vectors B-S) -/

/-- B-S1, B-S3, B-S6, B-S12, B-S14, B-S15: the queue after a request. -/
theorem test_ctrl_queues :
    (after (exec (.ctrl false ⟨none, some .high, none, none⟩) (idleAt .low .off .normal))).map (·.q) =
      some [.speed, .speed] ∧
    (after (exec (.ctrl false ⟨none, some .low, none, none⟩) (idleAt .medium .off .normal))).map (·.q) =
      some [.speed, .speed] ∧
    (after (exec (.ctrl false ⟨none, none, none, some .sleep⟩) (idleAt .low .off .normal))).map (·.q) =
      some [.mode, .mode] ∧
    (after (exec (.ctrl false ⟨none, none, some true, none⟩) (idleAt .off .off .off))).map (·.q) =
      some [.swing] ∧
    (after (exec (.ctrl false ⟨some false, some .high, none, some .sleep⟩)
      (idleAt .medium .on .nature))).map (·.q) = some [.off] ∧
    (after (exec (.ctrl false ⟨some false, none, some false, none⟩)
      (idleAt .medium .on .nature))).map (·.q) = some [.off, .swing] := by decide

/-- B-S23 (the longest queue), B-S28, B-S37. -/
theorem test_ctrl_effects :
    (after (exec (.ctrl false ⟨some true, some .high, some true, some .sleep⟩)
      (idleAt .off .off .off))).map (fun t => (t.q, t.out)) =
      some ([.off, .speed, .speed, .speed, .swing, .mode, .mode, .mode], 0xFFFE) ∧
    (after (exec (.ctrl false ⟨none, some .high, none, none⟩) State.reset)).map (fun t => (t.q, t.events)) =
      some ([], [.dropped .noState]) ∧
    (after (exec (.ctrl true ⟨none, some .high, none, none⟩)
      (idleAt .low .off .normal))).map (fun t => (t.proc, t.phase, t.tmr, t.events)) =
      some (true, .press, .armed 50, [.wr 0xFFFB, .log .wr]) := by decide

/-- B-S18: the other panel. -/
theorem test_ctrl_bonded_panel :
    requestSymbols { Params.default with onOffIndependent := false } ⟨.off, .off, .off, .mask 0⟩
      ⟨some true, none, none, none⟩ = [.onspeed] := by decide

/-- B-S30, B-S31. -/
theorem test_tadv :
    (after (exec (.tadv false) State.reset)).map (fun t => (t.q, t.proc, t.phase, t.out, t.events)) =
      some ([.timer], true, .press, 0xFFFD, [.wr 0xFFFD]) ∧
    (after (exec (.tadv false) (gapAt [.mode]))).map (fun t => (t.q, t.events)) =
      some ([.mode], [.dropped .busy]) := by decide

/-- B-S32, B-S33. -/
theorem test_texp_press_last :
    (after (exec (.texp true) (pressingAt .timer []))).map (fun t => (t.q, t.proc, t.phase)) =
      some ([], false, .idle) ∧
    (after (exec (.texp true) (pressingAt .timer []))).map (fun t => (t.tmr, t.out, t.events)) =
      some (.idle, 0xFFFF, [.wr 0xFFFF, .log .wr]) := by decide

/-- B-S36. -/
theorem test_texp_press_more :
    (after (exec (.texp false) (pressingAt .speed [.mode]))).map (fun t => (t.q, t.proc, t.phase)) =
      some ([.mode], true, .gap) ∧
    (after (exec (.texp false) (pressingAt .speed [.mode]))).map (fun t => (t.tmr, t.out, t.events)) =
      some (.armed 50, 0xFFFF, [.wr 0xFFFF]) := by decide

/-- B-S34, B-S38. -/
theorem test_texp_gap :
    (after (exec (.texp false) (gapAt [.mode]))).map (fun t => (t.q, t.phase, t.tmr, t.out, t.events)) =
      some ([.mode], .press, .armed 50, 0xFFEF, [.wr 0xFFEF]) ∧
    after (exec (.texp false) State.reset) = none := by decide

/-- B-O with 41 R99: each press word where its line is due. -/
theorem test_press_words :
    (after (exec (.pressB0 false) (gapAt [.off]))).map (·.out) = some 0xFFFE ∧
    (after (exec (.pressB1 false) (gapAt [.timer]))).map (·.out) = some 0xFFFD ∧
    (after (exec (.pressB2 false) (gapAt [.speed]))).map (·.out) = some 0xFFFB ∧
    (after (exec (.pressB3 false) (gapAt [.onspeed]))).map (·.out) = some 0xFFF7 ∧
    (after (exec (.pressB4 false) (gapAt [.mode]))).map (·.out) = some 0xFFEF ∧
    (after (exec (.pressB5 false) (gapAt [.swing]))).map (·.out) = some 0xFFDF ∧
    (after (exec (.pressB6 false) (gapElsewhere [.off]))).map (·.out) = some 0xFFBF ∧
    (after (exec (.pressB7 false) (gapElsewhere [.timer]))).map (·.out) = some 0xFF7F := by decide

/-- 41 R99, R105: no press word out of turn. -/
theorem test_press_words_out_of_turn :
    after (exec (.pressB0 false) (gapAt [.timer])) = none ∧
    after (exec (.pressB0 false) (pressingAt .off [])) = none ∧
    after (exec (.pressB6 false) State.reset) = none := by decide

theorem test_release :
    (after (exec (.release false) (pressingAt .speed [.mode]))).map (fun t => (t.q, t.phase, t.out)) =
      some ([.mode], .gap, 0xFFFF) ∧
    after (exec (.release false) (gapAt [.mode])) = none := by decide

/-! ### Steps, reset, clock cycles -/

theorem test_step_runs_a_table_word :
    (after (step (State.reset.withFetchWord 24 0x600000))).map (fun t => (t.q, t.inbox)) =
      some ([.timer], []) ∧
    countAfter .r0 .c0 (step (State.reset.withFetchWord 16 0x10)) = some 1 := by decide

/-- B-R2. -/
theorem test_step_reset :
    (after (step { pressingAt .speed [.speed] with inbox := [.reset] })) =
      some { State.reset with port := 0xFFFB } := by decide

/-- B-P, the cycle of the request: the write is on the pins at once, `processing` one cycle later. -/
theorem test_clock_request_pins :
    (after (clockCycle { quiet with ctrlValid := true, ctrlReq := 0x1C } (idleAt .low .off .normal))).map
      (fun t => let o := pinOut (idleAt .low .off .normal) t
                (o.wrValid, o.btnOut, o.processing, o.stSpeed, t.tmr)) =
      some (true, 0xFFFB, false, 1, .armed 50) := by decide

/-- 70 R129, R147, B-R2: a reset during a press writes nothing, so `btn_out` holds the press word in its cycle and
after it, while `OUT` is 0xFFFF; the next write ends it. -/
theorem test_clock_reset_pins :
    let pressed := pressingAt .speed []
    (after (clockAll [{ quiet with rst := true }, quiet] pressed)).map
      (fun t => let o := pinOut pressed t; (o.wrValid, o.btnOut, t.out)) = some (false, 0xFFFB, 0xFFFF) ∧
    (after (clockCycle { quiet with tadvValid := true } { State.reset with port := 0xFFFB })).map
      (fun t => let o := pinOut State.reset t; (o.wrValid, o.btnOut)) = some (true, 0xFFFD) := by decide

/-- B-P, cycle 150: a request in the cycle of the last release is judged with `PROC` still 1. -/
theorem test_clock_expiry_and_request :
    (after (clockCycle { quiet with ctrlValid := true, ctrlReq := 0x1C }
      { pressingAt .timer [] with tmr := .armed 1 })).map (fun t => (t.proc, t.out, t.events)) =
      some (false, 0xFFFF, [.dropped .busy, .wr 0xFFFF]) := by decide

/-- 30 R64, with the source's scenario as program P1 writes it. -/
theorem test_pseudo_operations :
    movesOfText "WINDOW 0x2A*24, 0x0E*8".toList = some (polln 24 0x2A ++ polln 8 0x0E) ∧
    movesOfText "window 0x2A*24,0x0E*8".toList = some (polln 24 0x2A ++ polln 8 0x0E) ∧
    movesOfText "WINDOW 0x2A*24, 0x0E*7".toList = none ∧
    movesOfText "DRAIN 2".toList = some [presented (.texp false), presented (.texp false),
      presented (.texp false)] ∧
    movesOfText "POLLN 2, 0x1234".toList = some [presented (.pollOk 0x1234), presented (.pollOk 0x1234)] ∧
    movesOfText "RESET".toList = some [.reset] := by decide

/-- No operand without its comma, no drain of nothing (log 8). -/
theorem test_pseudo_operations_refused :
    movesOfText "DRAIN 1 2".toList = none ∧ movesOfText "DRAIN 0".toList = none ∧
    movesOfText "DRAIN 1, 2".toList = none ∧ movesOfText "POLLN 2 0x1234".toList = none ∧
    movesOfText "WINDOW 0x2A*3 2".toList = none ∧ movesOfText "POLLN 2, , 0x12".toList = none := by decide

/-- Either letter case, in an operand too (log 8). -/
theorem test_lines_in_either_case :
    assembleText "poll 0XaB2a".toList = some (.pollOk 0xAB2A) ∧
    assembleText "Tadv !WF".toList = some (.tadv true) := by decide

/-- 30 R63: no word is read twice or out of place. -/
theorem test_lines_refused :
    assembleText "CTRL mode=off mode=off".toList = none ∧ assembleText "POLL 0x2".toList = none ∧
    assembleText "TADV wf".toList = none ∧ assembleText "".toList = none := by decide

/-! ### Witnesses: each statement's hypotheses can be met -/

theorem witness_OperationsAndOutputWordsRoundTrip : isPattern (.pressB7 true) = false := by decide

theorem witness_SampleIsReadAsAPatternItShows :
    wellFormed (litInstr .r3 .c2 0x86) = true ∧
    ∀ r' c', showsCell r' c' 0x86 = true → r' = .r3 ∧ c' = .c2 := by
  refine ⟨by decide, fun r c => ?_⟩
  cases r <;> cases c <;> decide

theorem witness_ReservedOpcodesRefused :
    5 ≤ ((0xA00000 : OpWord).extractLsb' 21 3).toNat ∧ 5 ≤ ((0xFFFFFF : OpWord).extractLsb' 21 3).toNat ∧
    ({ State.reset with inbox := [.present (opwTransfer 0xA00000)] } : State).inbox =
      .present (opwTransfer 0xA00000) :: [] := by decide

theorem witness_IgnoredOperationBits :
    (0x03FF : Word16).extractLsb' 0 10 = (0xFFFF : Word16).extractLsb' 0 10 := by decide

theorem witness_SwingBitAndByteOneIgnored :
    State.reset.params.Legal ∧
    (0x002A : Word16).extractLsb' 1 7 = (0xFF2B : Word16).extractLsb' 1 7 := by decide

theorem witness_ShortReadIsPollFail :
    ([] : List Byte).length < 2 ∧ ([0xFF] : List Byte).length < 2 ∧
    (pressingAt .timer []).phase = .press ∧ (gapAt [.mode]).phase ≠ .press ∧ (gapAt [.mode]).q = .mode :: [] ∧
    State.reset.phase ≠ .press ∧ State.reset.q = [] ∧
    ({ State.reset with inbox := [.present ⟨.btn, []⟩] } : State).inbox = .present ⟨.btn, []⟩ :: [] := by decide

theorem witness_OutputWordsAreOneHotLow : 0 < 16 ∧ 15 < 16 ∧ 8 ≤ 8 ∧ 8 ≤ 15 := by decide

theorem witness_PollCountsTheSample :
    State.reset.proc = false ∧ State.reset.wcnt ≠ 31 ∧
    Instr.litR2C2 0x46 = litInstr .r2 .c2 0x46 := by decide

theorem witness_PatternCountsItsCell :
    wellFormed (litInstr .r3 .c0 0xF1) = true ∧ State.reset.params = Params.default ∧
    State.reset.proc = false ∧ State.reset.wcnt ≠ 31 := by decide

theorem witness_WindowEndStoresAndReports : lastSample.proc = false ∧ lastSample.wcnt = 31 := by decide

theorem witness_PollsSuspendedWhileProcessing :
    isDecoderInstr .pollFail ∧ isDecoderInstr (.pollOk 0) ∧ isDecoderInstr (.litR0C0 0x10) ∧
    (gapAt [.mode]).proc = true :=
  ⟨.inl rfl, .inr (.inl ⟨0, rfl⟩), .inr (.inr rfl), rfl⟩

theorem witness_VerdictIsCountAboveTwo :
    gridGet (gridOf fun _ _ => (2 : Count)) .r0 .c0 = 2 ∧
    gridGet (gridOf fun _ _ => (3 : Count)) .r3 .c2 = 3 := by decide

theorem witness_ModeDecode :
    let lit : Grid Bool := gridOf fun r c => decide (r = .r2 ∧ c = .c2)
    Params.default.Legal ∧ modeLit lit .sleep = true ∧ (∀ m', modeLit lit m' = true → m' = .sleep) ∧
    ∀ m, modeLit (gridOf fun _ _ => false) m = false := by
  refine ⟨by decide, by decide, fun m => ?_, fun m => ?_⟩ <;> cases m <;> decide

/-- All three mode cells lit, in another order than the default: the last listed wins (00 R6). -/
theorem witness_ModeDecode_several_lit :
    let lit : Grid Bool := gridOf fun _ _ => true
    modeLit lit .nature = true ∧ (∀ m' ∈ ([] : List ModeCell), modeLit lit m' = false) ∧
    decodeMode ([.sleep, .normal] ++ .nature :: []) lit = .nature := by decide

theorem witness_TimerBitsAreCells :
    gridGet (gridOf fun _ _ => false) .r0 .c0 = false ∧ gridGet (gridOf fun _ _ => false) .r1 .c0 = false ∧
    gridGet (gridOf fun _ _ => false) .r2 .c0 = false ∧ gridGet (gridOf fun _ _ => false) .r3 .c0 = false := by
  decide

theorem witness_WindowDecodesThirtyTwoGoodSamples :
    State.reset.proc = false ∧ State.reset.wcnt = 0 ∧ (∀ r c, gridGet State.reset.acc r c = 0) ∧
    (goodSamples (none :: List.replicate 32 (some 0x2A) ++ [none])).length = 32 := by
  refine ⟨rfl, rfl, fun r c => ?_, by decide⟩
  cases r <;> cases c <;> rfl

theorem witness_ColdStartAlwaysReports :
    Params.default.restore = none ∧ (List.replicate 32 (0x0E : Word16)).length = 32 ∧
    (List.replicate 31 (0x0E : Word16)).length < 32 := by decide

theorem witness_reset_invariant : Inv State.reset where
  legal := by decide
  procIsBusy := by decide
  idleIsQuiet := by decide
  pressHoldsLine := fun h => absurd h (by decide)
  gapIsReleased := by decide
  queueBounded := by decide
  countsBounded := ⟨by decide, fun r c => by cases r <;> cases c <;> decide⟩
  sentinelsTogether := by decide
  portHoldsAWord := ⟨fun _ => rfl, .inl rfl⟩

theorem witness_press_invariant : Inv (pressingAt .speed [.mode]) where
  legal := by decide
  procIsBusy := by decide
  idleIsQuiet := by decide
  pressHoldsLine := fun _ => ⟨by decide, .speed, [.mode], rfl, rfl⟩
  gapIsReleased := by decide
  queueBounded := by decide
  countsBounded := ⟨by decide, fun r c => by cases r <;> cases c <;> decide⟩
  sentinelsTogether := by decide
  portHoldsAWord := ⟨fun _ => rfl, .inr ⟨.speed, rfl⟩⟩

theorem witness_gap_invariant : Inv (gapAt [.mode]) where
  legal := by decide
  procIsBusy := by decide
  idleIsQuiet := by decide
  pressHoldsLine := fun h => absurd h (by decide)
  gapIsReleased := by decide
  queueBounded := by decide
  countsBounded := ⟨by decide, fun r c => by cases r <;> cases c <;> decide⟩
  sentinelsTogether := by decide
  portHoldsAWord := ⟨fun _ => rfl, .inl rfl⟩

theorem witness_SixtyFourPollsSettle :
    Inv State.reset ∧ State.reset.proc = false ∧ (List.replicate 64 (0x2A : Word16)).length = 64 :=
  ⟨witness_reset_invariant, rfl, by decide⟩

theorem witness_CyclicDistanceTable :
    (3 : Int) ≥ 3 ∧ (1 : Int) < 3 ∧ (0 : Int) ≤ 0 ∧ (0 : Int) ≤ 3 ∧ (1 : Int) ≤ 1 ∧ (3 : Int) ≤ 3 := by decide

theorem witness_RequestAsksForTheseSymbols :
    noState ⟨.off, .off, .off, .mask 0⟩ = false ∧
    (⟨some true, some .high, none, some .sleep⟩ : CtrlReq).speed = some .high ∧
    (⟨none, some .reserved, none, some .off⟩ : CtrlReq).mode = some .off := by decide

theorem witness_ControlDroppedWhileProcessing : (gapAt [.mode]).proc = true := by decide

theorem witness_ControlDroppedBeforeFirstWindow :
    State.reset.proc = false ∧ State.reset.ds.speed = .invalid := by decide

theorem witness_ControlStartsItsDrain :
    (idleAt .low .off .normal).proc = false ∧ noState (idleAt .low .off .normal).ds = false ∧
    requestSymbols Params.default (idleAt .low .off .normal).ds ⟨none, none, none, none⟩ = [] ∧
    requestSymbols Params.default (idleAt .low .off .normal).ds ⟨none, some .high, none, none⟩ =
      .speed :: [.speed] := by decide

/-- B-S25, and a speed request to a fan that stays off. -/
theorem witness_NoDifferenceNoPress :
    let s := idleAt .medium .on .sleep
    let req : CtrlReq := ⟨some true, some .medium, some true, some .sleep⟩
    (s.proc = false ∧ noState s.ds = false ∧ requestSymbols s.params s.ds req = [] ∧
    (∀ on, req.power = some on → on = decide (s.ds.speed ≠ .off)) ∧
    (∀ v, req.speed = some v → v ≠ .reserved → (reqSpeedCode v).toNat = (speedCode s.ds.speed).toNat) ∧
    (∀ on, req.osc = some on → s.ds.osc = if on then .on else .off) ∧
    (∀ v, req.mode = some v → v ≠ .off → (reqModeCode v).toNat = (modeCode s.ds.mode).toNat)) ∧
    let off := idleAt .off .off .off
    let slow : CtrlReq := ⟨none, some .low, none, none⟩
    ¬ (slow.power = some true ∨ (slow.power = none ∧ off.ds.speed ≠ .off)) := by
  refine ⟨⟨by decide, by decide, by decide, by decide, fun v h _ => ?_, by decide, fun v h _ => ?_⟩,
    by decide⟩ <;> (cases h; decide)

/-- B-S23 has length 8, B-S24 length 5, B-S15 length 2. -/
theorem witness_RequestListBound :
    noState (idleAt .off .off .off).ds = false ∧
    (requestSymbols Params.default (idleAt .off .off .off).ds
      ⟨some true, some .high, some true, some .sleep⟩).length = 8 ∧
    (requestSymbols Params.default (idleAt .low .off .normal).ds
      ⟨none, some .high, some true, some .sleep⟩).length = 5 ∧
    (requestSymbols Params.default (idleAt .medium .on .nature).ds
      ⟨some false, none, some false, none⟩).length = 2 := by decide

theorem witness_AdvanceTimerPressesTimer : (gapAt [.mode]).proc = true ∧ State.reset.proc = false := by decide

theorem witness_ReleasePopsAndGoesOn :
    isArmed (pressingAt .speed []).tmr = true ∧ (pressingAt .speed []).phase = .press ∧
    (pressingAt .speed []).q = .speed :: [] ∧ (pressingAt .speed [.mode]).q = .speed :: [.mode] := by decide

theorem witness_AssertPressesTheFront :
    (gapAt [.mode]).q = .mode :: [] ∧ isArmed (gapAt [.mode]).tmr = true ∧
    (gapAt [.mode]).phase = .gap := by decide

theorem witness_ButtonWordsAreTheDrainsSteps :
    (gapAt [.mode]).q = .mode :: [] ∧ (gapAt [.mode]).phase ≠ .press ∧
    (7 : Fin 8) ≠ btnBitOf (gapAt [.mode]).params .mode ∧
    (pressingAt .mode []).phase = .press ∧ (pressingAt .mode []).q = .mode :: [] ∧
    State.reset.q = [] ∧
    ({ State.reset with phase := .press } : State).phase = .press := by decide

theorem witness_ExpiryNeedsAnArmedDelay : State.reset.tmr = .idle := by decide

theorem witness_WriteFailureOnlyLogs :
    (∃ t, exec (.tadv false) State.reset = .next t) ∧ (∃ t, exec (.texp false) (gapAt [.mode]) = .next t) ∧
    ∃ t, exec (.ctrl false ⟨none, none, none, none⟩) State.reset = .next t := ⟨⟨_, rfl⟩, ⟨_, rfl⟩, ⟨_, rfl⟩⟩

/-- Program P2's request: two symbols, three expiries. -/
theorem witness_DrainWritesEverySymbolInOrder :
    (idleAt .low .off .normal).proc = false ∧ noState (idleAt .low .off .normal).ds = false ∧
    requestSymbols Params.default (idleAt .low .off .normal).ds ⟨none, some .high, none, none⟩ ≠ [] ∧
    [false, true, false].length = 2 * (requestSymbols Params.default (idleAt .low .off .normal).ds
      ⟨none, some .high, none, none⟩).length - 1 := by decide

theorem witness_DecoderFrame :
    (∃ t, isDecoderInstr (.pollOk 0x2A) ∧ exec (.pollOk 0x2A) lastSample = .next t) ∧
    State.reset.wcnt ≠ 31 :=
  ⟨⟨_, .inr (.inl ⟨_, rfl⟩), rfl⟩, by decide⟩

theorem witness_SequencerFrame :
    ∃ t, isSequencerInstr (.texp false) ∧ exec (.texp false) (gapAt [.mode]) = .next t :=
  ⟨_, by simp [isSequencerInstr, isDecoderInstr, isPattern], rfl⟩

theorem witness_AtMostOneWritePerInstruction :
    (∃ t, exec (.pressB4 true) (gapAt [.mode]) = .next t) ∧ ∃ t, exec .pollFail State.reset = .next t :=
  ⟨⟨_, rfl⟩, ⟨_, rfl⟩⟩

theorem witness_ResetFromAnyState :
    ({ pressingAt .speed [] with inbox := [.reset] } : State).inbox = .reset :: [] := by decide

theorem witness_ResetHasInvariant :
    Params.Legal { Params.default with restore := some ⟨.low, .on, .sleep, .mask 15⟩ } := by decide

theorem witness_StepKeepsInvariant :
    Inv (gapAt [.mode]) ∧ ∃ t, step (gapAt [.mode]) = .next t := ⟨witness_gap_invariant, ⟨_, rfl⟩⟩

theorem witness_NothingFaults : Inv (gapAt [.mode]) ∧ isArmed (gapAt [.mode]).tmr = true :=
  ⟨witness_gap_invariant, by decide⟩

theorem witness_ModeChangesOnlyHere :
    (∃ t, exec (.tadv false) State.reset = .next t ∧ State.reset.proc = false ∧ t.proc = true) ∧
    ∃ t, exec (.texp false) (pressingAt .timer []) = .next t ∧ (pressingAt .timer []).proc = true ∧
      t.proc = false :=
  ⟨⟨_, rfl, rfl, rfl⟩, ⟨_, rfl, rfl, rfl⟩⟩

theorem witness_PhaseMoves :
    Inv (gapAt [.mode]) ∧ ∃ t, exec (.texp false) (gapAt [.mode]) = .next t :=
  ⟨witness_gap_invariant, ⟨_, rfl⟩⟩

theorem witness_StatePerMode :
    (Inv (pressingAt .speed [.mode]) ∧ (pressingAt .speed [.mode]).proc = true ∧
      ∃ t, exec (.texp false) (pressingAt .speed [.mode]) = .next t) ∧
    (Inv State.reset ∧ ∃ t, exec (.pollOk 0) State.reset = .next t ∧ t.proc = false) :=
  ⟨⟨witness_press_invariant, rfl, ⟨_, rfl⟩⟩, ⟨witness_reset_invariant, ⟨_, rfl, rfl⟩⟩⟩

theorem witness_NeverTwoLinesLow :
    Inv (pressingAt .speed [.mode]) ∧ 2 < 16 ∧ (pressingAt .speed [.mode]).out.getLsbD 2 = false ∧
    (pressingAt .speed [.mode]).port.getLsbD 2 = false :=
  ⟨witness_press_invariant, by decide, by decide, by decide⟩

theorem witness_ConfigurationIsConstant :
    (∃ t, exec (.tadv false) State.reset = .next t) ∧ quiet.rst = false ∧
    ∃ t, clockCycle quiet State.reset = .next t := ⟨⟨_, rfl⟩, rfl, ⟨_, rfl⟩⟩

theorem witness_StepRunsTheInstruction :
    ({ State.reset with inbox := [.present ⟨.led, [0x2A, 0]⟩] } : State).inbox =
      .present ⟨.led, [0x2A, 0]⟩ :: [] ∧
    decode ⟨.led, [0x2A, 0]⟩ = .ok (.litR1C1 0x2A) ∧ State.reset.inbox = [] := by decide

theorem witness_CycleIsSequentialComposition :
    RunningPins quiet State.reset ∧ delayDue (Tmr.armed 1) = true ∧ delayDue (Tmr.armed 2) = false ∧
    delayDue State.reset.tmr = false := by decide

theorem witness_DelayTakesExactlyItsCycles :
    (gapAt [.mode]).proc = true ∧ (gapAt [.mode]).tmr = .armed (49 + 1) ∧
    (List.replicate 49 quiet).length = 49 ∧ RunningPins quiet (gapAt [.mode]) := by decide

theorem witness_SameCycleConflicts :
    let p : Pins := { quiet with ctrlValid := true, ctrlReq := 0x1C, tadvValid := true }
    RunningPins p (idleAt .low .off .normal) ∧ p.ctrlValid = true ∧
    (idleAt .low .off .normal).proc = false ∧ (idleAt .low .off .normal).tmr = .idle ∧
    (∃ t, exec (.ctrl p.wrFail (decodeCtrlw p.ctrlReq)) (idleAt .low .off .normal) = .next t ∧
      t.proc = true) ∧
    RunningPins p { gapAt [.mode] with tmr := .armed 1 } ∧ (gapAt [.mode]).proc = true ∧
    delayDue (Tmr.armed 1) = true :=
  ⟨by decide, rfl, rfl, rfl, ⟨_, rfl, by decide⟩, by decide, rfl, rfl⟩

/-- A `TADV` beside a `CTRL` with an empty list, and a poll alone in the cycle of the last expiry. -/
theorem witness_SameCycleConflicts_without_a_drain :
    let s := idleAt .low .off .normal
    let both : Pins := { quiet with ctrlValid := true, tadvValid := true }
    RunningPins both s ∧ s.proc = false ∧ s.tmr = .idle ∧ noState s.ds = false ∧
    requestSymbols s.params s.ds (decodeCtrlw both.ctrlReq) = [] ∧
    (after (clockCycle both s)).map (·.q) = some [.timer] ∧
    (after (clockCycle { quiet with pollValid := true, pollOk := true }
      { pressingAt .timer [] with tmr := .armed 1 })).map (fun t => (t.wcnt, t.proc, t.events)) =
      some (0, false, [.wr 0xFFFF]) := by decide

theorem witness_ResetPinIgnoresStrobes : ({ quiet with rst := true } : Pins).rst = true := by decide

/-- 1000 Hz is whole, 1009 Hz below one half, 1011 Hz above it, 1010 Hz at it, 5 Hz below the least delay. -/
theorem witness_DelayCyclesAtWholeProducts :
    (0 < 50 ∧ Params.default.fClk = 20 * 50) ∧
    (50 * 1009 < 1000 * 50 + 500 ∧ 1000 * 50 < 50 * 1009 + 500) ∧
    (50 * 1011 < 1000 * 51 + 500 ∧ 1000 * 51 < 50 * 1011 + 500) ∧
    50 * 1010 = 1000 * 50 + 500 ∧ 50 * 5 < 500 := by decide

/-- 70 R147 by hand: 50.45 cycles are 50, 50.55 are 51, 0.25 are at least 1. -/
theorem test_delayCycles :
    delayCycles 50 1009 = 50 ∧ delayCycles 50 1011 = 51 ∧ delayCycles 50 5 = 1 := by decide

/-- A cycle with two drops, one with none, and a request before the first window. -/
theorem witness_OutputPins :
    let both : Pins := { quiet with ctrlValid := true, tadvValid := true }
    RunningPins both (gapAt [.mode]) ∧ (gapAt [.mode]).events = [] ∧
    (after (clockCycle both (gapAt [.mode]))).map (·.events) = some [.dropped .busy, .dropped .busy] ∧
    (after (clockCycle quiet State.reset)).map (·.events) = some [] ∧
    (after (clockCycle { quiet with ctrlValid := true } State.reset)).map (·.events) =
      some [.dropped .noState] ∧
    (after (clockCycle { quiet with rst := true } (pressingAt .speed []))).map (·.events) = some [] ∧
    (after (clockCycle { quiet with tadvValid := true } State.reset)).map (fun t => writesOf t.events) =
      some [0xFFFD] := by decide

theorem witness_SentinelsNeverReturn :
    (∃ t, exec (.pollOk 0x86) lastSample = .next t) ∧ lastSample.ds.real ∧ quiet.rst = false ∧
    ∃ t, clockCycle quiet lastSample = .next t := ⟨⟨_, rfl⟩, by decide, rfl, ⟨_, rfl⟩⟩

/-- `CTRL speed=high` from LOW queues two symbols: 150 ms, at 1 kHz 150 cycles (vectors B-P). -/
theorem witness_DrainTakesItsTime :
    let s := idleAt .low .off .normal
    let first : Pins := { quiet with ctrlValid := true, ctrlReq := 0x1C }
    s.params.fClk = 20 * 50 ∧ s.proc = false ∧ s.tmr = .idle ∧ noState s.ds = false ∧
    RunningPins first s ∧ RunningPins quiet s ∧ first.ctrlValid = true ∧
    (requestSymbols s.params s.ds (decodeCtrlw first.ctrlReq)).length = 2 ∧
    (List.replicate 150 quiet).length = (2 * 2 - 1) * 50 :=
  ⟨rfl, rfl, rfl, by decide, by decide, by decide, rfl, by decide, List.length_replicate⟩

end Sys2Proof.Machine
end

section
/-! SUPPORT. The lit predicate in the default layout (30 R49 to R51): which bits it reads, and its mask and match
pairs as shifts. -/

namespace Sys2Proof.Machine

@[simp] theorem rowBitOf_default (r : Row) : (rowBitOf Params.default r).val = r.defaultBit := by
  cases r <;> rfl

@[simp] theorem colBitOf_default (c : Col) : (colBitOf Params.default c).val = c.defaultBit := by
  cases c <;> rfl

/-- The default `ROW_ACTIVE` is high (00 R6). -/
theorem rowAsserted_default (raw : Word16) (r : Row) :
    rowAsserted Params.default raw r = raw.getLsbD r.defaultBit := by
  rw [rowAsserted, rowBitOf_default, show Params.default.rowActive = true from rfl, beq_true]

theorem colLow_default (raw : Word16) (c : Col) :
    colLow Params.default raw c = !raw.getLsbD c.defaultBit := by
  rw [colLow, colBitOf_default]

theorem litNow_default (raw : Word16) (r : Row) (c : Col) :
    litNow Params.default raw r c = showsCell r c raw := by
  rw [litNow, rowAsserted_default, colLow_default, showsCell]

theorem matchesCell_eq_litNow_default (r : Row) (c : Col) (raw : Word16) :
    matchesCell r c raw = litNow Params.default raw r c :=
  (matchesCell_eq_showsCell r c raw).trans (litNow_default raw r c).symm

theorem cellMask_eq_shifts (r : Row) (c : Col) :
    cellMask r c = (1 <<< r.defaultBit) ||| (1 <<< c.defaultBit) := by
  cases r <;> cases c <;> rfl

theorem cellMatch_eq_shift (r : Row) : cellMatch r = 1 <<< r.defaultBit := by
  cases r <;> rfl

/-- The formula of 30 R51. -/
theorem litNow_default_eq_formula (raw : Word16) (r : Row) (c : Col) :
    litNow Params.default raw r c =
      ((raw &&& ((1 <<< r.defaultBit) ||| (1 <<< c.defaultBit))) == 1 <<< r.defaultBit) := by
  rw [← matchesCell_eq_litNow_default, matchesCell, cellMask_eq_shifts, cellMatch_eq_shift]

theorem litNow_of_row_not_asserted {p : Params} {raw : Word16} {r : Row} (c : Col)
    (row : rowAsserted p raw r = false) : litNow p raw r c = false := by
  rw [litNow, row, Bool.false_and]

theorem litNow_of_col_not_low {p : Params} {raw : Word16} {c : Col} (r : Row)
    (col : colLow p raw c = false) : litNow p raw r c = false := by
  rw [litNow, col, Bool.and_false]

theorem litNow_of_row_of_col {p : Params} {raw : Word16} {r : Row} {c : Col}
    (row : rowAsserted p raw r = true) (col : colLow p raw c = true) : litNow p raw r c = true := by
  rw [litNow, row, col, Bool.and_self]

/-- 0x00 asserts no row; 0xFF and 0x0E hold every column high (30 R51). -/
theorem no_cell_lit_samples (r : Row) (c : Col) :
    litNow Params.default 0x00 r c = false ∧ litNow Params.default 0xFF r c = false ∧
    litNow Params.default 0x0E r c = false := by
  have row : rowAsserted Params.default 0x00 r = false := by cases r <;> decide
  have colFF : colLow Params.default 0xFF c = false := by cases c <;> decide
  have col0E : colLow Params.default 0x0E c = false := by cases c <;> decide
  exact ⟨litNow_of_row_not_asserted c row, litNow_of_col_not_low r colFF, litNow_of_col_not_low r col0E⟩

/-- 0xF0 asserts every row and holds every column low, and so does 0xF1: bit 0 is no row's or column's
(30 R51). -/
theorem every_cell_lit_samples (r : Row) (c : Col) :
    litNow Params.default 0xF0 r c = true ∧ litNow Params.default 0xF1 r c = true := by
  have rows : rowAsserted Params.default 0xF0 r = true ∧ rowAsserted Params.default 0xF1 r = true := by
    cases r <;> decide
  have cols : colLow Params.default 0xF0 c = true ∧ colLow Params.default 0xF1 c = true := by
    cases c <;> decide
  exact ⟨litNow_of_row_of_col rows.1 cols.1, litNow_of_row_of_col rows.2 cols.2⟩

/-- 30 R50: a column's bit reads 0, written as the comparison that a row's bit has with `ROW_ACTIVE`. -/
theorem colLow_eq_beq_false (p : Params) (raw : Word16) (c : Col) :
    colLow p raw c = (raw.getLsbD (colBitOf p c).val == false) := by
  rw [colLow, beq_false]

/-- Settles O4: the extraction of rows and columns reads off the configured bits, and in the default layout the
predicate is the mask and match test, because both say that the row bit is 1 and the column bit 0. -/
theorem litPredicateIsMaskAndMatch : Obligations.LitPredicateIsMaskAndMatch := by
  unfold Obligations.LitPredicateIsMaskAndMatch
  refine ⟨fun p raw => ?extraction, fun _ _ _ _ => rfl, litNow_default_eq_formula,
    fun r c => ⟨cellMask_eq_shifts r c, cellMatch_eq_shift r⟩,
    fun raw r c => matchesCell_eq_litNow_default r c raw, no_cell_lit_samples, every_cell_lit_samples⟩
  case extraction =>
    exact ⟨rfl, rfl, rfl, rfl, colLow_eq_beq_false p raw .c0, colLow_eq_beq_false p raw .c1,
      colLow_eq_beq_false p raw .c2⟩

end Sys2Proof.Machine
end

section
/-! SUPPORT. The failed poll as a step of the machine (40 R69), a cell's verdict (40 R75), and the cells that
oscillation and the timer are decoded from (40 R78, R80). -/

namespace Sys2Proof.Machine

/-! ### The failed poll -/

theorem exec_pollFail (s : State) :
    exec .pollFail s = .next { s with toWork := pollFailed s.toWork } := rfl

/-- Settles O15: the word is of opcode 1, and a failed poll is nothing while `PROC` is true and else one `LOG`. -/
theorem failedPollOnlyLogs : Obligations.FailedPollOnlyLogs := by
  unfold Obligations.FailedPollOnlyLogs
  refine ⟨by decide, fun s => ?_⟩
  rw [exec_pollFail]
  obtain ⟨busy, nothing⟩ | ⟨sampling, logged⟩ := pollFailed_cases s.toWork
  · rw [nothing, if_pos busy]
  · rw [logged, if_neg (by simp [sampling])]
    rfl

/-! ### The verdicts -/

@[simp] theorem gridGet_thresh (acc : Grid Count) (r : Row) (c : Col) :
    gridGet (thresh acc) r c = decide (2 < (gridGet acc r c).toNat) :=
  gridGet_gridOf _ r c

/-- Settles O16: `THRESH` is a comparison per cell, and its boundary lies between 2 and 3. -/
theorem verdictIsCountAboveTwo : Obligations.VerdictIsCountAboveTwo := by
  unfold Obligations.VerdictIsCountAboveTwo
  refine ⟨gridGet_thresh, fun acc r c two => ?_, fun acc r c three => ?_⟩
  · rw [gridGet_thresh, two]
    decide
  · rw [gridGet_thresh, three]
    decide

/-! ### Oscillation -/

theorem decodeOsc_eq_on_iff (lit : Grid Bool) : decodeOsc lit = .on ↔ gridGet lit .r0 .c2 = true := by
  rw [decodeOsc]
  split_ifs with cell <;> simp [cell]

theorem decodeOsc_eq_off_iff (lit : Grid Bool) : decodeOsc lit = .off ↔ gridGet lit .r0 .c2 = false := by
  rw [decodeOsc]
  split_ifs with cell <;> simp [cell]

/-- Settles O18: the decode is a choice of two on the one cell. -/
theorem oscIsCellZeroTwo : Obligations.OscIsCellZeroTwo := by
  unfold Obligations.OscIsCellZeroTwo
  exact fun lit => ⟨decodeOsc_eq_on_iff lit, decodeOsc_eq_off_iff lit⟩

/-! ### The timer -/

/-- The bit of the timer mask that the timer cell of each row gives (40 R80). -/
def timerBit : Row → Nat
  | .r3 => 0
  | .r2 => 1
  | .r1 => 2
  | .r0 => 3

-- The mask is an append, so its width is a sum for the library's lemma on the bits of an append.
@[simp] theorem getLsbD_decodeTimer (lit : Grid Bool) (r : Row) :
    (decodeTimer lit).getLsbD (timerBit r) = gridGet lit r .c0 := by
  change BitVec.getLsbD (w := 1 + 1 + 1 + 1) (_ ++ _) _ = _
  simp only [BitVec.getLsbD_append, BitVec.getLsbD_ofBool]
  cases r <;> simp [timerBit]

/-- Every bit of a mask is some row's timer bit. -/
theorem timerMask_ext {m n : BitVec 4}
    (eq : ∀ r, m.getLsbD (timerBit r) = n.getLsbD (timerBit r)) : m = n := by
  apply BitVec.eq_of_getLsbD_eq
  intro i hi
  match i, hi with
  | 0, _ => exact eq .r3
  | 1, _ => exact eq .r2
  | 2, _ => exact eq .r1
  | 3, _ => exact eq .r0

/-- The decode is known from the verdicts of the four timer cells. -/
theorem decodeTimer_eq_iff (lit : Grid Bool) (m : BitVec 4) :
    decodeTimer lit = m ↔ ∀ r, gridGet lit r .c0 = m.getLsbD (timerBit r) := by
  constructor
  · rintro rfl r
    exact (getLsbD_decodeTimer lit r).symm
  · intro cells
    exact timerMask_ext fun r => (getLsbD_decodeTimer lit r).trans (cells r)

/-- The grid whose timer cells show the mask. -/
def timerGrid (m : BitVec 4) : Grid Bool := gridOf fun r _ => m.getLsbD (timerBit r)

@[simp] theorem decodeTimer_timerGrid (m : BitVec 4) : decodeTimer (timerGrid m) = m :=
  (decodeTimer_eq_iff _ m).mpr fun r => gridGet_gridOf _ r .c0

/-- Settles O20: the mask is the four timer cells, bit by bit. -/
theorem timerBitsAreCells : Obligations.TimerBitsAreCells := by
  unfold Obligations.TimerBitsAreCells
  refine ⟨fun lit => ?bits, fun m => ⟨timerGrid m, decodeTimer_timerGrid m⟩, fun lit r0 r1 r2 r3 => ?dark⟩
  case bits =>
    have bit := getLsbD_decodeTimer lit
    exact ⟨bit .r3, bit .r2, bit .r1, bit .r0⟩
  case dark =>
    refine (decodeTimer_eq_iff lit 0).mpr fun r => ?_
    cases r <;> simp [r0, r1, r2, r3]

end Sys2Proof.Machine
end

section
/-! SUPPORT. `CTRL` as a step of the machine, and its drop while a drain runs (41 R86, R95). -/

namespace Sys2Proof.Machine

theorem exec_ctrl (wf : Bool) (req : CtrlReq) (s : State) :
    exec (.ctrl wf req) s = .next { s with toWork := control s.params wf req s.toWork } := rfl

theorem control_of_proc (p : Params) (wf : Bool) (req : CtrlReq) {s : Work} (busy : s.proc = true) :
    control p wf req s = emit (.dropped .busy) s := by
  rw [control, if_pos busy]

/-- Settles O27: `CTRL` reads `PROC` before anything else, and all it then does is to append the drop. -/
theorem controlDroppedWhileProcessing : Obligations.ControlDroppedWhileProcessing := by
  unfold Obligations.ControlDroppedWhileProcessing
  intro wf req s busy
  rw [exec_ctrl, control_of_proc s.params wf req busy]
  rfl

end Sys2Proof.Machine
end

section
/-! SUPPORT. The formats OPW, OUTW and RAW field by field (30 R56 to R66): what the decoder reads from a word built
from its fields, and that it gives back what the encoder wrote. -/

namespace Sys2Proof

/-! ### The operation word (30 R59) -/

/-- An operation word with its unused bits 19:16 at any value; the encoder's `opwOf` has them 0. -/
def opwFields (opc : BitVec 3) (wf : Bool) (z : BitVec 4) (opd : Word16) : OpWord :=
  opc ++ BitVec.ofBool wf ++ z ++ opd

theorem opwOf_eq_opwFields (opc : BitVec 3) (wf : Bool) (opd : Word16) :
    opwOf opc wf opd = opwFields opc wf 0 opd := rfl

section Fields
variable (opc : BitVec 3) (wf : Bool) (z : BitVec 4) (opd : Word16)

-- The word is an append, so its width is a sum for the library's lemmas on appends.
theorem opwFields_opc : (opwFields opc wf z opd).extractLsb' 21 3 = opc := by
  change BitVec.extractLsb' 21 3 (n := 3 + 1 + 4 + 16) (_ ++ _) = _
  apply BitVec.eq_of_getLsbD_eq
  intro i hi
  simp only [BitVec.getLsbD_extractLsb', BitVec.getLsbD_append]
  simp [hi, show ¬ 21 + i < 16 by omega, show ¬ 21 + i - 16 < 4 by omega, show ¬ 21 + i - 16 - 4 < 1 by omega,
    show 21 + i - 16 - 4 - 1 = i by omega]

theorem opwFields_wf : (opwFields opc wf z opd).getLsbD 20 = wf := by
  change BitVec.getLsbD (w := 3 + 1 + 4 + 16) (_ ++ _) 20 = _
  simp only [BitVec.getLsbD_append]
  simp

theorem opwFields_opd : (opwFields opc wf z opd).extractLsb' 0 16 = opd := by
  change BitVec.extractLsb' 0 16 (n := 3 + 1 + 4 + 16) (_ ++ _) = _
  exact BitVec.extractLsb'_append_eq_right

theorem opwFields_ctrlw : (opwFields opc wf z opd).extractLsb' 0 10 = opd.extractLsb' 0 10 := by
  change BitVec.extractLsb' 0 10 (n := 3 + 1 + 4 + 16) (_ ++ _) = _
  apply BitVec.eq_of_getLsbD_eq
  intro i hi
  simp only [BitVec.getLsbD_extractLsb', BitVec.getLsbD_append]
  simp [hi, show i < 16 by omega]

end Fields

section Operations
variable (wf : Bool) (z : BitVec 4) (opd : Word16)

theorem decodeOpw_pollOk : decodeOpw (opwFields 0 wf z opd) = .ok (.pollOk opd) := by
  simp only [decodeOpw, opwFields_opc, opwFields_opd]
  rfl

theorem decodeOpw_pollFail : decodeOpw (opwFields 1 wf z opd) = .ok .pollFail := by
  simp only [decodeOpw, opwFields_opc]
  rfl

theorem decodeOpw_ctrl :
    decodeOpw (opwFields 2 wf z opd) = .ok (.ctrl wf (decodeCtrlw (opd.extractLsb' 0 10))) := by
  simp only [decodeOpw, opwFields_opc, opwFields_wf, opwFields_ctrlw]
  rfl

theorem decodeOpw_tadv : decodeOpw (opwFields 3 wf z opd) = .ok (.tadv wf) := by
  simp only [decodeOpw, opwFields_opc, opwFields_wf]
  rfl

theorem decodeOpw_texp : decodeOpw (opwFields 4 wf z opd) = .ok (.texp wf) := by
  simp only [decodeOpw, opwFields_opc, opwFields_wf]
  rfl

end Operations

theorem decodeOpw_of_reservedOpc {w : OpWord} (reserved : 5 ≤ (w.extractLsb' 21 3).toNat) :
    decodeOpw w = .error (.reservedOpc (w.extractLsb' 21 3).toNat) := by
  simp only [decodeOpw]
  rw [if_neg (by omega), if_neg (by omega), if_neg (by omega), if_neg (by omega), if_neg (by omega)]

/-- The request word survives its place in the operand. -/
theorem extractLsb'_setWidth_ctrlw (w : CtrlWord) : ((w.setWidth 16).extractLsb' 0 10 : CtrlWord) = w := by
  apply BitVec.eq_of_getLsbD_eq
  intro i hi
  simp [hi, show i < 16 by omega]

/-- Settles O2: an operation is read back field by field from its word, an output word from its value, and a
request by its own round trip. -/
theorem operationsAndOutputWordsRoundTrip : Obligations.OperationsAndOutputWordsRoundTrip := by
  unfold Obligations.OperationsAndOutputWordsRoundTrip
  intro i noPattern
  cases i with
  | pollOk raw => rw [encode, decode_opwTransfer, opwOf_eq_opwFields, decodeOpw_pollOk]
  | pollFail => rw [encode, decode_opwTransfer, opwOf_eq_opwFields, decodeOpw_pollFail]
  | ctrl wf req =>
    rw [encode, decode_opwTransfer, opwOf_eq_opwFields, decodeOpw_ctrl, extractLsb'_setWidth_ctrlw,
      decodeCtrlw_encodeCtrlw]
  | tadv wf => rw [encode, decode_opwTransfer, opwOf_eq_opwFields, decodeOpw_tadv]
  | texp wf => rw [encode, decode_opwTransfer, opwOf_eq_opwFields, decodeOpw_texp]
  | pressB0 wf | pressB1 wf | pressB2 wf | pressB3 wf | pressB4 wf | pressB5 wf | pressB6 wf | pressB7 wf
  | release wf =>
    rw [encode, decode_btnTransfer]
    rfl
  | litR0C0 | litR0C1 | litR0C2 | litR1C0 | litR1C1 | litR1C2
  | litR2C0 | litR2C1 | litR2C2 | litR3C0 | litR3C1 | litR3C2 => cases noPattern

/-- Settles O6: each operation's reading names only the fields it uses. -/
theorem ignoredOperationBits : Obligations.IgnoredOperationBits := by
  unfold Obligations.IgnoredOperationBits
  intro wf wf' z z' opd opd'
  refine ⟨?pollOk, ?pollFail, fun sameRequest => ?ctrl, ?tadv, ?texp⟩
  case pollOk => exact (decodeOpw_pollOk wf z opd).trans (decodeOpw_pollOk wf' z' opd).symm
  case pollFail => exact (decodeOpw_pollFail wf z opd).trans (decodeOpw_pollFail wf' z' opd').symm
  case ctrl =>
    refine (decodeOpw_ctrl wf z opd).trans ?_
    rw [sameRequest]
    exact (decodeOpw_ctrl wf z' opd').symm
  case tadv => exact (decodeOpw_tadv wf z opd).trans (decodeOpw_tadv wf z' opd').symm
  case texp => exact (decodeOpw_texp wf z opd).trans (decodeOpw_texp wf z' opd').symm

/-! ### The sample (30 R51, R66) -/

/-- Every cell is in the opcode table. -/
theorem mem_tableCells (r : Row) (c : Col) : (r, c) ∈ tableCells := by
  cases r <;> cases c <;> decide

/-- The cell found is one the sample shows. -/
theorem showsCell_of_firstCell {raw : Word16} {r : Row} {c : Col} {cells : List (Row × Col)}
    (found : firstCell raw cells = some (r, c)) : showsCell r c raw = true := by
  induction cells with
  | nil => cases found
  | cons cell rest ih =>
    obtain ⟨r', c'⟩ := cell
    rw [firstCell] at found
    split_ifs at found with shown
    · cases found
      rw [← matchesCell_eq_showsCell, shown]
    · exact ih found

/-- A cell is found if one of them is shown. -/
theorem exists_firstCell {raw : Word16} {r : Row} {c : Col} {cells : List (Row × Col)}
    (mem : (r, c) ∈ cells) (shown : showsCell r c raw = true) : ∃ r' c', firstCell raw cells = some (r', c') := by
  induction cells with
  | nil => cases mem
  | cons cell rest ih =>
    obtain ⟨r', c'⟩ := cell
    rw [firstCell]
    split_ifs with first
    · exact ⟨r', c', rfl⟩
    · obtain here | later := List.mem_cons.mp mem
      · cases here
        exact absurd ((matchesCell_eq_showsCell r c raw).trans shown) first
      · exact ih later

theorem decodeRaw_of_showsCell {r : Row} {c : Col} {raw : Word16} (shown : showsCell r c raw = true) :
    ∃ r' c', decodeRaw raw = litInstr r' c' raw ∧ showsCell r' c' raw = true := by
  obtain ⟨r', c', found⟩ := exists_firstCell (mem_tableCells r c) shown
  exact ⟨r', c', by rw [decodeRaw, found], showsCell_of_firstCell found⟩

theorem encode_litInstr (r : Row) (c : Col) (raw : Word16) : encode (litInstr r c raw) = ledTransfer raw := by
  cases r <;> cases c <;> rfl

theorem wellFormed_litInstr (r : Row) (c : Col) (raw : Word16) :
    wellFormed (litInstr r c raw) = showsCell r c raw := by
  cases r <;> cases c <;> rfl

/-- Settles O3: the decoder looks for the first cell the sample shows, and finds one. -/
theorem sampleIsReadAsAPatternItShows : Obligations.SampleIsReadAsAPatternItShows := by
  unfold Obligations.SampleIsReadAsAPatternItShows
  intro r c raw wf
  rw [wellFormed_litInstr] at wf
  obtain ⟨r', c', read, shown⟩ := decodeRaw_of_showsCell wf
  rw [encode_litInstr, decode_ledTransfer, read]
  refine ⟨⟨r', c', rfl, shown⟩, fun only => ?_⟩
  obtain ⟨rfl, rfl⟩ := only r' c' shown
  rfl

/-! ### The words and lines the spec writes out (30 R56, R60, R61, R63) -/

/-- Settles O1: each word is evaluated by the decoder. -/
theorem writtenWordsDecode : Obligations.WrittenWordsDecode := by
  unfold Obligations.WrittenWordsDecode
  decide

/-- Settles O9: the eight lines and the sixteen bits are checked one by one. -/
theorem outputWordsAreOneHotLow : Obligations.OutputWordsAreOneHotLow := by
  unfold Obligations.OutputWordsAreOneHotLow
  decide

/-- Settles O10: each line is evaluated from its characters. -/
theorem writtenLinesAssemble : Obligations.WrittenLinesAssemble := by
  unfold Obligations.WrittenLinesAssemble
  decide

/-- Settles O21: the sixteen masks are checked one by one. -/
theorem timerMaskIsHalfHours : Obligations.TimerMaskIsHalfHours := by
  unfold Obligations.TimerMaskIsHalfHours
  decide

end Sys2Proof
end

section
/-! SUPPORT. A step of the machine by the host's oldest move (logs 1, 9), and what a step can be. -/

namespace Sys2Proof.Machine

/-! ### The move presented -/

/-- Bytes that are an instruction are so in every state: only a write of no byte is read from the drain. -/
theorem decodeAt_of_decode {x : Transfer} {i : Instr} (s : State) (read : decode x = .ok i) :
    decodeAt s x = .ok i := by
  unfold decodeAt
  split
  · cases read
  · exact read

theorem step_of_decodeAt {s : State} {x : Transfer} {i : Instr} {rest : List HostMove}
    (oldest : s.inbox = .present x :: rest) (read : decodeAt s x = .ok i) :
    step s = exec i (beginStep rest s) := by
  simp only [step, fetch, oldest, read]

theorem step_of_undecodable {s : State} {x : Transfer} {e : DecodeError} {rest : List HostMove}
    (oldest : s.inbox = .present x :: rest) (unread : decodeAt s x = .error e) :
    step s = .refused (.undecodable e) := by
  simp only [step, fetch, oldest, unread]

theorem step_of_clock {s : State} {p : Pins} {rest : List HostMove} (oldest : s.inbox = .clock p :: rest) :
    step s = clockCycle p (beginStep rest s) := by
  simp only [step, fetch, oldest]

theorem step_of_reset {s : State} {rest : List HostMove} (oldest : s.inbox = .reset :: rest) :
    step s = .next (resetBlock (beginStep rest s)) := by
  simp only [step, fetch, oldest]

theorem step_of_no_move {s : State} (noMove : s.inbox = []) : step s = .next (beginStep [] s) := by
  simp only [step, fetch, noMove]

/-- What a step can be: an instruction, a clock cycle, a reset or nothing at the state with the oldest move taken, or
the refusal of bytes that are no instruction. -/
theorem step_eq (s : State) : ∃ rest,
    step s = .next (beginStep rest s) ∨ (∃ i, step s = exec i (beginStep rest s)) ∨
    (∃ p, step s = clockCycle p (beginStep rest s)) ∨ step s = .next (resetBlock (beginStep rest s)) ∨
    ∃ e, step s = .refused (.undecodable e) := by
  match oldest : s.inbox with
  | [] => exact ⟨[], .inl (step_of_no_move oldest)⟩
  | .clock p :: rest => exact ⟨rest, .inr (.inr (.inl ⟨p, step_of_clock oldest⟩))⟩
  | .reset :: rest => exact ⟨rest, .inr (.inr (.inr (.inl (step_of_reset oldest))))⟩
  | .present x :: rest =>
    match read : decodeAt s x with
    | .ok i => exact ⟨rest, .inr (.inl ⟨i, step_of_decodeAt oldest read⟩)⟩
    | .error e => exact ⟨rest, .inr (.inr (.inr (.inr ⟨e, step_of_undecodable oldest read⟩)))⟩

/-- Settles O53: bytes that are an instruction are that instruction in every state, and the step runs it. -/
theorem stepRunsTheInstruction : Obligations.StepRunsTheInstruction := by
  unfold Obligations.StepRunsTheInstruction
  refine ⟨fun s x i rest oldest read => step_of_decodeAt oldest (decodeAt_of_decode s read), fun s noMove => ?_⟩
  rw [step_of_no_move noMove, beginStep, noMove]

/-- Settles O5: the bytes of an operation word are never a write of no byte, and its opcode is none of the five. -/
theorem reservedOpcodesRefused : Obligations.ReservedOpcodesRefused := by
  unfold Obligations.ReservedOpcodesRefused
  intro w s rest reserved oldest
  have unread : decodeAt s (opwTransfer w) = .error (.reservedOpc (w.extractLsb' 21 3).toNat) :=
    (decode_opwTransfer w).trans (decodeOpw_of_reservedOpc reserved)
  exact step_of_undecodable oldest unread

/-! ### Short transfers -/

theorem decode_short_read {bytes : List Byte} (short : bytes.length < 2) :
    decode ⟨.led, bytes⟩ = .ok .pollFail := by
  match bytes, short with
  | [], _ | [_], _ => rfl

theorem decode_short_press (line : Fin 8) :
    decode ⟨.btn, [(pressWord line).extractLsb' 0 8]⟩ = .ok (pressInstr line true) := by
  revert line
  decide

theorem step_of_empty_write {s : State} {rest : List HostMove} (oldest : s.inbox = .present ⟨.btn, []⟩ :: rest) :
    step s = exec (dueWrite s.params s.toBlock) (beginStep rest s) :=
  step_of_decodeAt oldest rfl

theorem dueWrite_of_press (p : Params) {s : Block} (press : s.phase = .press) : dueWrite p s = .release true := by
  simp only [dueWrite, press]

theorem dueWrite_of_cons (p : Params) {s : Block} {b : Button} {others : List Button} (released : s.phase ≠ .press)
    (front : s.q = b :: others) : dueWrite p s = pressInstr (btnBitOf p b) true := by
  unfold dueWrite
  split
  · exact absurd ‹_› released
  · simp_all
  · simp_all

theorem dueWrite_of_nil (p : Params) {s : Block} (empty : s.q = []) : dueWrite p s = .release true := by
  unfold dueWrite
  split <;> simp_all

theorem exec_release (wf : Bool) (s : State) :
    exec (.release wf) s = onBlock (fun p w => releaseLine p wf w) s := rfl

theorem exec_release_of_not_press (wf : Bool) {s : State} (released : s.phase ≠ .press) :
    exec (.release wf) s = .refused .releaseNotDue := by
  rw [exec_release, onBlock_refused, releaseLine, if_neg released]

/-- Settles O8: a short read is a failed poll; a short write is read off its byte, or off the drain. -/
theorem shortReadIsPollFail : Obligations.ShortReadIsPollFail := by
  unfold Obligations.ShortReadIsPollFail
  refine ⟨fun _ => decode_short_read, decode_short_press, by decide, fun s rest oldest =>
    ⟨?press, ?front, ?none⟩⟩
  case press =>
    intro press
    rw [step_of_empty_write oldest, dueWrite_of_press s.params press]
    rfl
  case front =>
    intro b others released front
    rw [step_of_empty_write oldest, dueWrite_of_cons s.params released front]
    rfl
  case none =>
    intro released empty
    rw [step_of_empty_write oldest, dueWrite_of_nil s.params empty]
    exact exec_release_of_not_press true released

/-! ### Reset -/

/-- Settles O42: each value of reset is read off, and each code evaluated. -/
theorem resetValues : Obligations.ResetValues := by
  unfold Obligations.ResetValues
  refine ⟨gridGet_gridOf fun _ _ => 0, rfl, rfl, rfl, rfl, rfl, rfl, rfl, rfl, by decide, by decide, by decide, rfl,
    fun m => ?mask⟩
  case mask => exact BitVec.toNat_setWidth_of_le (by decide)

/-- Settles O43: the step is the reset of the block, which asks nothing of the state but what it keeps. -/
theorem resetFromAnyState : Obligations.ResetFromAnyState := by
  unfold Obligations.ResetFromAnyState
  intro s rest oldest
  rw [step_of_reset oldest]
  rfl

theorem clockCycle_of_rst {p : Pins} (s : State) (high : p.rst = true) :
    clockCycle p s = .next (resetBlock { s with params := { s.params with onOffIndependent := p.cfgOnOff } }) := by
  rw [clockCycle, if_pos high]

/-- Settles O58: with `rst` high the cycle looks at no other pin but the configuration's. -/
theorem resetPinIgnoresStrobes : Obligations.ResetPinIgnoresStrobes := by
  unfold Obligations.ResetPinIgnoresStrobes
  intro p s high
  rw [clockCycle_of_rst s high]
  rfl

end Sys2Proof.Machine
end

section
/-! SUPPORT. The symbols a request asks for (41 R87 to R95), field by field, and how many they are (41 R107). -/

namespace Sys2Proof.Machine

/-! ### The cyclic distance (41 R87) -/

theorem dist3_of_ge {cur tgt : Int} (ahead : tgt ≥ cur) : dist3 cur tgt = tgt - cur := if_pos ahead

theorem dist3_of_lt {cur tgt : Int} (behind : tgt < cur) : dist3 cur tgt = tgt - cur + 3 :=
  if_neg (not_le.mpr behind)

/-- Settles O25: the two branches of the definition, and the table evaluated. -/
theorem cyclicDistanceTable : Obligations.CyclicDistanceTable := by
  unfold Obligations.CyclicDistanceTable
  refine ⟨fun cur tgt => ⟨dist3_of_ge, dist3_of_lt⟩, fun cur tgt cur0 cur3 tgt1 tgt3 => ?range, by decide⟩
  case range =>
    obtain ahead | behind := le_or_gt cur tgt
    · rw [dist3_of_ge ahead]
      omega
    · rw [dist3_of_lt behind]
      omega

@[simp] theorem presses_self (n : Nat) : presses n n = 0 := by simp [presses, dist3]

/-- From Off a button is pressed up to the target's code, else at most twice. -/
theorem presses_le {cur tgt : Nat} (cur3 : cur ≤ 3) (tgt1 : 1 ≤ tgt) (tgt3 : tgt ≤ 3) :
    presses cur tgt ≤ if cur = 0 then tgt else 2 := by
  unfold presses dist3
  split_ifs <;> omega

/-! ### Codes -/

theorem speedCode_le_three {v : Speed} (real : v ≠ .invalid) : (speedCode v).toNat ≤ 3 := by
  revert real; cases v <;> decide

theorem speedCode_eq_zero {v : Speed} : (speedCode v).toNat = 0 ↔ v = .off := by cases v <;> decide

theorem modeCode_le_three {v : Mode} (real : v ≠ .invalid) : (modeCode v).toNat ≤ 3 := by
  revert real; cases v <;> decide

theorem modeCode_eq_zero {v : Mode} : (modeCode v).toNat = 0 ↔ v = .off := by cases v <;> decide

theorem reqSpeedCode_range {v : ReqSpeed} (named : v ≠ .reserved) :
    1 ≤ (reqSpeedCode v).toNat ∧ (reqSpeedCode v).toNat ≤ 3 ∧ ((reqSpeedCode v).toNat = 3 → v = .high) := by
  revert named; cases v <;> decide

theorem reqModeCode_range {v : ReqMode} (named : v ≠ .off) :
    1 ≤ (reqModeCode v).toNat ∧ (reqModeCode v).toNat ≤ 3 ∧ ((reqModeCode v).toNat = 3 → v = .sleep) := by
  revert named; cases v <;> decide

theorem noState_eq_false {d : Decoded} :
    noState d = false ↔ d.speed ≠ .invalid ∧ d.osc ≠ .invalid ∧ d.mode ≠ .invalid := by
  simp [noState, and_assoc]

theorem noState_eq_true {d : Decoded} :
    noState d = true ↔ d.speed = .invalid ∨ d.osc = .invalid ∨ d.mode = .invalid := by
  simp [noState, or_assoc]

/-! ### The fields of a request -/

theorem onAfter_iff (d : Decoded) (req : CtrlReq) :
    onAfter d req = true ↔ req.power = some true ∨ (req.power = none ∧ d.speed ≠ .off) := by
  unfold onAfter curOn
  cases req.power <;> simp

theorem powerSymbols_eq (p : Params) (d : Decoded) (req : CtrlReq) :
    powerSymbols p d req =
      if req.power = some false ∧ d.speed ≠ .off then [.off]
      else if req.power = some true ∧ d.speed = .off then (if p.onOffIndependent then [.off] else [.onspeed])
      else [] := by
  unfold powerSymbols curOn
  rcases req.power with _ | _ | _ <;> by_cases off : d.speed = .off <;> simp [off]

theorem speedSymbols_of_on {d : Decoded} {req : CtrlReq} {v : ReqSpeed} (asked : req.speed = some v)
    (named : v ≠ .reserved) (on : onAfter d req = true) :
    speedSymbols d req = List.replicate (presses (speedCode d.speed).toNat (reqSpeedCode v).toNat) .speed := by
  unfold speedSymbols
  rw [asked]
  cases v with
  | reserved => contradiction
  | low | medium | high => exact if_pos on

theorem speedSymbols_eq_nil {d : Decoded} {req : CtrlReq}
    (unasked : req.speed = none ∨ req.speed = some .reserved ∨ ¬ onAfter d req = true) :
    speedSymbols d req = [] := by
  unfold speedSymbols
  obtain absent | reserved | off := unasked
  · rw [absent]
  · rw [reserved]
  · rcases req.speed with _ | _ | _ <;> simp [off]

/-- The speed list is empty, or the presses to a speed that is asked for. -/
theorem speedSymbols_cases (d : Decoded) (req : CtrlReq) :
    speedSymbols d req = [] ∨
    ∃ v, req.speed = some v ∧ v ≠ .reserved ∧ onAfter d req = true ∧
      speedSymbols d req = List.replicate (presses (speedCode d.speed).toNat (reqSpeedCode v).toNat) .speed := by
  by_cases asked : req.speed = none ∨ req.speed = some .reserved ∨ ¬ onAfter d req = true
  · exact .inl (speedSymbols_eq_nil asked)
  · push Not at asked
    obtain ⟨present, named, on⟩ := asked
    obtain ⟨v, asked⟩ := Option.ne_none_iff_exists'.mp present
    have named : v ≠ .reserved := fun reserved => named (reserved ▸ asked)
    exact .inr ⟨v, asked, named, on, speedSymbols_of_on asked named on⟩

theorem modeSymbols_of_on {d : Decoded} {req : CtrlReq} {v : ReqMode} (asked : req.mode = some v)
    (named : v ≠ .off) (on : onAfter d req = true) :
    modeSymbols d req = List.replicate (presses (modeCode d.mode).toNat (reqModeCode v).toNat) .mode := by
  unfold modeSymbols
  rw [asked]
  cases v with
  | off => contradiction
  | normal | nature | sleep => exact if_pos on

theorem modeSymbols_eq_nil {d : Decoded} {req : CtrlReq}
    (unasked : req.mode = none ∨ req.mode = some .off ∨ ¬ onAfter d req = true) :
    modeSymbols d req = [] := by
  unfold modeSymbols
  obtain absent | preset | off := unasked
  · rw [absent]
  · rw [preset]
  · rcases req.mode with _ | _ | _ <;> simp [off]

/-- The mode list is empty, or the presses to a mode that is asked for. -/
theorem modeSymbols_cases (d : Decoded) (req : CtrlReq) :
    modeSymbols d req = [] ∨
    ∃ v, req.mode = some v ∧ v ≠ .off ∧ onAfter d req = true ∧
      modeSymbols d req = List.replicate (presses (modeCode d.mode).toNat (reqModeCode v).toNat) .mode := by
  by_cases asked : req.mode = none ∨ req.mode = some .off ∨ ¬ onAfter d req = true
  · exact .inl (modeSymbols_eq_nil asked)
  · push Not at asked
    obtain ⟨present, named, on⟩ := asked
    obtain ⟨v, asked⟩ := Option.ne_none_iff_exists'.mp present
    have named : v ≠ .off := fun preset => named (preset ▸ asked)
    exact .inr ⟨v, asked, named, on, modeSymbols_of_on asked named on⟩

theorem swingSymbols_eq (d : Decoded) (req : CtrlReq) :
    swingSymbols d req =
      if (req.osc = some true ∧ d.osc ≠ .on) ∨ (req.osc = some false ∧ d.osc ≠ .off)
      then [.swing] else [] := by
  unfold swingSymbols reqOsc
  rcases req.osc with _ | _ | _ <;> simp [eq_comm]

/-- Settles O26: the list is made of the four fields' lists, each with its own rule. -/
theorem requestAsksForTheseSymbols : Obligations.RequestAsksForTheseSymbols := by
  unfold Obligations.RequestAsksForTheseSymbols
  intro p d req _
  refine ⟨powerSymbols p d req, speedSymbols d req, swingSymbols d req, modeSymbols d req, rfl,
    powerSymbols_eq p d req, ?_, swingSymbols_eq d req⟩
  rw [← onAfter_iff]
  exact ⟨fun v => speedSymbols_of_on, speedSymbols_eq_nil, fun v => modeSymbols_of_on, modeSymbols_eq_nil⟩

/-! ### How many symbols (41 R107) -/

theorem length_powerSymbols_le (p : Params) (d : Decoded) (req : CtrlReq) : (powerSymbols p d req).length ≤ 1 := by
  rw [powerSymbols_eq]
  split_ifs <;> simp

theorem length_swingSymbols_le (d : Decoded) (req : CtrlReq) : (swingSymbols d req).length ≤ 1 := by
  rw [swingSymbols_eq]
  split_ifs <;> simp

/-- A symbol of oscillation is asked for by a value that differs from the current one. -/
theorem osc_differs_of_swingSymbols {d : Decoded} {req : CtrlReq} (pressed : swingSymbols d req ≠ []) :
    ∃ on, req.osc = some on ∧ d.osc ≠ if on then .on else .off := by
  rw [swingSymbols_eq] at pressed
  obtain ⟨asked, _⟩ := ite_ne_right_iff.mp pressed
  obtain ⟨toOn, differs⟩ | ⟨toOff, differs⟩ := asked
  · exact ⟨true, toOn, differs⟩
  · exact ⟨false, toOff, differs⟩

/-- With the speed Off at most 3 presses, and 3 only to power on at High; else at most 2. -/
theorem length_speedSymbols {d : Decoded} (req : CtrlReq) (real : d.speed ≠ .invalid) :
    (speedSymbols d req).length ≤ 3 ∧ (d.speed ≠ .off → (speedSymbols d req).length ≤ 2) ∧
    ((speedSymbols d req).length = 3 → d.speed = .off ∧ req.speed = some .high ∧ req.power = some true) := by
  obtain empty | ⟨v, asked, named, on, list⟩ := speedSymbols_cases d req
  · simp [empty]
  · obtain ⟨low, high, onlyHigh⟩ := reqSpeedCode_range named
    have few := presses_le (speedCode_le_three real) low high
    rw [list, List.length_replicate]
    by_cases off : d.speed = .off
    · rw [if_pos (speedCode_eq_zero.mpr off)] at few
      refine ⟨by omega, absurd off, fun three => ⟨off, ?_, ?_⟩⟩
      · rw [asked, onlyHigh (by omega)]
      · obtain powered | ⟨_, running⟩ := (onAfter_iff d req).mp on
        · exact powered
        · exact absurd off running
    · rw [if_neg (mt speedCode_eq_zero.mp off)] at few
      exact ⟨by omega, fun _ => few, fun three => by omega⟩

/-- With the mode Off at most 3 presses, and 3 only to Sleep; else at most 2. -/
theorem length_modeSymbols {d : Decoded} (req : CtrlReq) (real : d.mode ≠ .invalid) :
    (modeSymbols d req).length ≤ 3 ∧ (d.mode ≠ .off → (modeSymbols d req).length ≤ 2) ∧
    ((modeSymbols d req).length = 3 → d.mode = .off ∧ req.mode = some .sleep) := by
  obtain empty | ⟨v, asked, named, on, list⟩ := modeSymbols_cases d req
  · simp [empty]
  · obtain ⟨low, high, onlySleep⟩ := reqModeCode_range named
    have few := presses_le (modeCode_le_three real) low high
    rw [list, List.length_replicate]
    by_cases off : d.mode = .off
    · rw [if_pos (modeCode_eq_zero.mpr off)] at few
      exact ⟨by omega, absurd off, fun three => ⟨off, by rw [asked, onlySleep (by omega)]⟩⟩
    · rw [if_neg (mt modeCode_eq_zero.mp off)] at few
      exact ⟨by omega, fun _ => few, fun three => by omega⟩

theorem length_requestSymbols (p : Params) (d : Decoded) (req : CtrlReq) :
    (requestSymbols p d req).length = (powerSymbols p d req).length + (speedSymbols d req).length +
      (swingSymbols d req).length + (modeSymbols d req).length := by
  simp only [requestSymbols, List.length_append]

theorem length_requestSymbols_le {p : Params} {d : Decoded} {req : CtrlReq} (known : noState d = false) :
    (requestSymbols p d req).length ≤ 8 := by
  obtain ⟨speed, _, mode⟩ := noState_eq_false.mp known
  have powerBound := length_powerSymbols_le p d req
  obtain ⟨speedBound, _⟩ := length_speedSymbols req speed
  have swingBound := length_swingSymbols_le d req
  obtain ⟨modeBound, _⟩ := length_modeSymbols req mode
  rw [length_requestSymbols]
  omega

/-- Settles O31: each bound is the sum of the fields' bounds, and 8 needs every field at its own. -/
theorem requestListBound : Obligations.RequestListBound := by
  unfold Obligations.RequestListBound
  intro p d req known
  refine ⟨length_requestSymbols_le known, ?_⟩
  obtain ⟨speedReal, _, modeReal⟩ := noState_eq_false.mp known
  have power := length_powerSymbols_le p d req
  have swing := length_swingSymbols_le d req
  obtain ⟨speed3, speed2, speedAll⟩ := length_speedSymbols req speedReal
  obtain ⟨mode3, mode2, modeAll⟩ := length_modeSymbols req modeReal
  rw [length_requestSymbols]
  refine ⟨fun eight => ?longest, fun running notOff mode => ?running, fun powerOff => ?powerOff⟩
  case longest =>
    obtain ⟨speedOff, high, powerOn⟩ := speedAll (by omega)
    obtain ⟨modeOff, sleep⟩ := modeAll (by omega)
    have pressed : swingSymbols d req ≠ [] := List.ne_nil_of_length_pos (by omega)
    exact ⟨speedOff, modeOff, powerOn, high, sleep, osc_differs_of_swingSymbols pressed⟩
  case running =>
    have empty : powerSymbols p d req = [] := by simp [powerSymbols_eq, running, notOff]
    have := speed2 running
    have := mode2 mode
    rw [empty, List.length_nil]
    omega
  case powerOff =>
    have off : ¬ onAfter d req = true := by simp [onAfter_iff, powerOff]
    rw [speedSymbols_eq_nil (.inr (.inr off)), modeSymbols_eq_nil (.inr (.inr off)), List.length_nil]
    omega

/-! ### No difference, no symbol (41 R96) -/

/-- The list is empty when each named value is the current one, or asks for nothing. -/
theorem requestSymbols_eq_nil {p : Params} {d : Decoded} {req : CtrlReq}
    (power : ∀ on, req.power = some on → on = decide (d.speed ≠ .off))
    (speed : ∀ v, req.speed = some v → v ≠ .reserved → onAfter d req = true →
      (reqSpeedCode v).toNat = (speedCode d.speed).toNat)
    (osc : ∀ on, req.osc = some on → d.osc = if on then .on else .off)
    (mode : ∀ v, req.mode = some v → v ≠ .off → onAfter d req = true →
      (reqModeCode v).toNat = (modeCode d.mode).toNat) : requestSymbols p d req = [] := by
  have noPower : powerSymbols p d req = [] := by
    rw [powerSymbols_eq, if_neg, if_neg]
    · rintro ⟨on, off⟩
      simpa [off] using power true on
    · rintro ⟨off, on⟩
      simpa [on] using power false off
  have noSpeed : speedSymbols d req = [] := by
    obtain empty | ⟨v, asked, named, on, list⟩ := speedSymbols_cases d req
    · exact empty
    · rw [list, speed v asked named on, presses_self, List.replicate_zero]
  have noSwing : swingSymbols d req = [] := by
    by_contra pressed
    obtain ⟨on, asked, differs⟩ := osc_differs_of_swingSymbols pressed
    exact differs (osc on asked)
  have noMode : modeSymbols d req = [] := by
    obtain empty | ⟨v, asked, named, on, list⟩ := modeSymbols_cases d req
    · exact empty
    · rw [list, mode v asked named on, presses_self, List.replicate_zero]
  rw [requestSymbols, noPower, noSpeed, noSwing, noMode]
  rfl

end Sys2Proof.Machine
end

section
/-! SUPPORT. The State Decoder's instructions (40_decoder.md): one poll, inside a window and at its end, and the
bits of a sample it reads. -/

namespace Sys2Proof.Machine

/-! ### The Decoder's instructions -/

theorem exec_pollOk (raw : Word16) (s : State) :
    exec (.pollOk raw) s = .next { s with toWork := pollSample s.params raw s.toWork } := rfl

/-- `POLL.OK` and the twelve patterns are one operation, the poll of their sample (log 4). -/
theorem exec_sample {i : Instr} {raw : Word16} (kind : i = .pollOk raw ∨ ∃ r c, i = litInstr r c raw) (s : State) :
    exec i s = .next { s with toWork := pollSample s.params raw s.toWork } := by
  obtain rfl | ⟨r, c, rfl⟩ := kind
  · exact exec_pollOk raw s
  · exact exec_litInstr r c raw s

theorem exists_litInstr_of_isPattern {i : Instr} (pattern : isPattern i = true) :
    ∃ r c raw, i = litInstr r c raw := by
  cases i with
  | litR0C0 raw => exact ⟨.r0, .c0, raw, rfl⟩
  | litR0C1 raw => exact ⟨.r0, .c1, raw, rfl⟩
  | litR0C2 raw => exact ⟨.r0, .c2, raw, rfl⟩
  | litR1C0 raw => exact ⟨.r1, .c0, raw, rfl⟩
  | litR1C1 raw => exact ⟨.r1, .c1, raw, rfl⟩
  | litR1C2 raw => exact ⟨.r1, .c2, raw, rfl⟩
  | litR2C0 raw => exact ⟨.r2, .c0, raw, rfl⟩
  | litR2C1 raw => exact ⟨.r2, .c1, raw, rfl⟩
  | litR2C2 raw => exact ⟨.r2, .c2, raw, rfl⟩
  | litR3C0 raw => exact ⟨.r3, .c0, raw, rfl⟩
  | litR3C1 raw => exact ⟨.r3, .c1, raw, rfl⟩
  | litR3C2 raw => exact ⟨.r3, .c2, raw, rfl⟩
  | pollOk | pollFail | ctrl | tadv | texp | pressB0 | pressB1 | pressB2 | pressB3 | pressB4 | pressB5 | pressB6
  | pressB7 | release => cases pattern

/-- A Decoder instruction is the failed poll or the poll of a sample. -/
theorem isDecoderInstr_cases {i : Instr} (decoder : isDecoderInstr i) :
    i = .pollFail ∨ ∃ raw, i = .pollOk raw ∨ ∃ r c, i = litInstr r c raw := by
  obtain failed | ⟨raw, polled⟩ | pattern := decoder
  · exact .inl failed
  · exact .inr ⟨raw, .inl polled⟩
  · obtain ⟨r, c, raw, lit⟩ := exists_litInstr_of_isPattern pattern
    exact .inr ⟨raw, .inr ⟨r, c, lit⟩⟩

/-! ### One poll -/

theorem pollSample_of_proc (p : Params) (raw : Word16) {s : Work} (busy : s.proc = true) :
    pollSample p raw s = s := if_pos busy

theorem pollFailed_of_proc {s : Work} (busy : s.proc = true) : pollFailed s = s := if_pos busy

theorem pollFailed_of_not_proc {s : Work} (sampling : s.proc = false) : pollFailed s = raise .rd s := by
  simp only [pollFailed, sampling, Bool.false_eq_true, if_false]

theorem wcnt_succ_eq_window (n : Count) : n + 1 = Config.window ↔ n = 31 := by
  rw [show Config.window = 31 + 1 from rfl]
  exact BitVec.add_left_inj 1

theorem pollSample_inside (p : Params) (raw : Word16) {s : Work} (sampling : s.proc = false) (inside : s.wcnt ≠ 31) :
    pollSample p raw s = countSample p raw s := by
  obtain ⟨busy, _⟩ | ⟨_, _, counted⟩ | ⟨_, full, _⟩ := pollSample_cases p raw s
  · simp [busy] at sampling
  · exact counted
  · exact absurd ((wcnt_succ_eq_window _).mp full) inside

theorem pollSample_last (p : Params) (raw : Word16) {s : Work} (sampling : s.proc = false) (last : s.wcnt = 31) :
    pollSample p raw s = finalize p (countSample p raw s) := by
  obtain ⟨busy, _⟩ | ⟨_, notFull, _⟩ | ⟨_, _, finalized⟩ := pollSample_cases p raw s
  · simp [busy] at sampling
  · exact absurd ((wcnt_succ_eq_window _).mpr last) notFull
  · exact finalized

@[simp] theorem gridGet_accum (p : Params) (raw : Word16) (acc : Grid Count) (r : Row) (c : Col) :
    gridGet (accum p raw acc) r c = if litNow p raw r c then gridGet acc r c + 1 else gridGet acc r c :=
  gridGet_gridOf _ r c

/-- Settles O14: both kinds of poll look at `PROC` first. -/
theorem pollsSuspendedWhileProcessing : Obligations.PollsSuspendedWhileProcessing := by
  unfold Obligations.PollsSuspendedWhileProcessing
  intro s i decoder busy
  obtain rfl | ⟨raw, kind⟩ := isDecoderInstr_cases decoder
  · rw [exec_pollFail, pollFailed_of_proc busy]
  · rw [exec_sample kind, pollSample_of_proc s.params raw busy]

/-- Settles O11: the next state is that of `ACCUM` and the advance of `WCNT`. -/
theorem pollCountsTheSample : Obligations.PollCountsTheSample := by
  unfold Obligations.PollCountsTheSample
  intro i raw s kind sampling inside
  refine ⟨accum s.params raw s.acc, ?_, gridGet_accum s.params raw s.acc⟩
  rw [exec_sample kind, pollSample_inside s.params raw sampling inside]
  rfl

/-- Only the maps of rows and columns and the active level decide what a sample lights. -/
theorem litNow_congr {p p' : Params} (rows : p.rowBit = p'.rowBit) (cols : p.colBit = p'.colBit)
    (active : p.rowActive = p'.rowActive) (raw : Word16) (r : Row) (c : Col) :
    litNow p raw r c = litNow p' raw r c := by
  have row : rowBitOf p r = rowBitOf p' r := by cases r <;> simp [rowBitOf, rows]
  have col : colBitOf p c = colBitOf p' c := by cases c <;> simp [colBitOf, cols]
  rw [litNow, litNow, rowAsserted, rowAsserted, colLow, colLow, row, col, active]

/-- Settles O12: a well-formed pattern is a sample that lights its own cell, which the poll counts. -/
theorem patternCountsItsCell : Obligations.PatternCountsItsCell := by
  unfold Obligations.PatternCountsItsCell
  intro r c raw s wf rows cols active sampling inside
  obtain ⟨acc, next, counts⟩ := pollCountsTheSample (litInstr r c raw) raw s (.inr ⟨r, c, rfl⟩) sampling inside
  have lit : litNow s.params raw r c = true := by
    rw [litNow_congr rows cols active, litNow_default, ← wellFormed_litInstr, wf]
  exact ⟨acc, next, by rw [counts, if_pos lit]⟩

/-- The verdicts of a window, the completing sample counted (40 R75). -/
theorem thresh_accum (p : Params) (raw : Word16) (acc : Grid Count) :
    thresh (accum p raw acc) = gridOf fun r c =>
      decide (2 < (if litNow p raw r c then gridGet acc r c + 1 else gridGet acc r c).toNat) :=
  grid_ext fun r c => by simp only [gridGet_thresh, gridGet_accum, gridGet_gridOf]

theorem windowEvents_eq (stored d : Decoded) :
    windowEvents stored d =
      (if d.speed ≠ stored.speed ∨ d.osc ≠ stored.osc ∨ d.mode ≠ stored.mode
        then [.notify d.speed d.osc d.mode] else []) ++
      (if d.timer ≠ stored.timer then [.timerText d.timer] else []) := by
  simp [windowEvents, changedFlag, timerFlag, or_assoc]

/-- Settles O13: the completing poll is `FINALIZE` after `ACCUM`, with the comparison's events in order. -/
theorem windowEndStoresAndReports : Obligations.WindowEndStoresAndReports := by
  unfold Obligations.WindowEndStoresAndReports
  refine ⟨fun i raw s kind sampling last => ?_, fun p lit => ⟨rfl, rfl, rfl, rfl⟩⟩
  rw [exec_sample kind, pollSample_last s.params raw sampling last, finalize_eq, countSample_acc, thresh_accum,
    windowEvents_eq, ← List.append_assoc]
  rfl

/-! ### The bits of a sample a poll reads -/

theorem accum_congr {p : Params} {raw raw' : Word16} (same : ∀ r c, litNow p raw r c = litNow p raw' r c)
    (acc : Grid Count) : accum p raw acc = accum p raw' acc := by
  simp only [accum, same]

theorem pollSample_congr {p : Params} {raw raw' : Word16} (same : ∀ r c, litNow p raw r c = litNow p raw' r c)
    (s : Work) : pollSample p raw s = pollSample p raw' s := by
  have counted : countSample p raw s = countSample p raw' s := by rw [countSample, accum_congr same, countSample]
  rw [pollSample, counted, pollSample]

theorem getLsbD_eq_of_bits_seven_to_one {raw raw' : Word16} (same : raw.extractLsb' 1 7 = raw'.extractLsb' 1 7)
    {i : Fin 8} (low : 1 ≤ i.val) : raw.getLsbD i.val = raw'.getLsbD i.val := by
  have bit := congrArg (fun v : BitVec 7 => v.getLsbD (i.val - 1)) same
  simp only [BitVec.getLsbD_extractLsb', show i.val - 1 < 7 by omega, show 1 + (i.val - 1) = i.val by omega,
    decide_true, Bool.true_and] at bit
  exact bit

theorem one_le_rowBitOf {p : Params} (legal : p.Legal) (r : Row) : 1 ≤ (rowBitOf p r).val := by
  obtain ⟨⟨_, rows⟩, _⟩ := legal
  simp only [Fin.le_def] at rows
  cases r <;> simp only [rowBitOf] <;> omega

theorem one_le_colBitOf {p : Params} (legal : p.Legal) (c : Col) : 1 ≤ (colBitOf p c).val := by
  obtain ⟨_, ⟨_, cols⟩, _⟩ := legal
  simp only [Fin.le_def] at cols
  cases c <;> simp only [colBitOf] <;> omega

/-- Bit 0 and byte 1 of a sample are no row's and no column's in a legal layout (30 R62 (1)). -/
theorem litNow_eq_of_bits_seven_to_one {p : Params} (legal : p.Legal) {raw raw' : Word16}
    (same : raw.extractLsb' 1 7 = raw'.extractLsb' 1 7) (r : Row) (c : Col) :
    litNow p raw r c = litNow p raw' r c := by
  have row := getLsbD_eq_of_bits_seven_to_one same (one_le_rowBitOf legal r)
  have col := getLsbD_eq_of_bits_seven_to_one same (one_le_colBitOf legal c)
  rw [litNow, litNow, rowAsserted, rowAsserted, colLow, colLow, row, col]

/-- Settles O7: a poll reads of its sample only which cells it lights. -/
theorem swingBitAndByteOneIgnored : Obligations.SwingBitAndByteOneIgnored := by
  unfold Obligations.SwingBitAndByteOneIgnored
  intro raw raw' s legal same
  have poll := pollSample_congr (litNow_eq_of_bits_seven_to_one legal same) s.toWork
  refine ⟨?pollOk, fun r c => ?pattern⟩
  case pollOk => rw [exec_pollOk, exec_pollOk, poll]
  case pattern => rw [exec_litInstr, exec_litInstr, poll]

/-! ### Speed and mode -/

/-- Settles O17: the definition asks the three cells in the order Low, Medium, High. -/
theorem speedTieBreak : Obligations.SpeedTieBreak := by
  unfold Obligations.SpeedTieBreak
  intro lit
  unfold decodeSpeed
  cases gridGet lit .r0 .c1 <;> cases gridGet lit .r1 .c1 <;> cases gridGet lit .r2 .c1 <;> rfl

/-- Cells that are not lit leave the decoded mode as it is. -/
theorem foldl_mode_of_none_lit {lit : Grid Bool} {cells : List ModeCell} (dark : ∀ m ∈ cells, modeLit lit m = false)
    (mode : Mode) : cells.foldl (fun m cell => if modeLit lit cell then modeOfCell cell else m) mode = mode := by
  induction cells with
  | nil => rfl
  | cons cell rest ih =>
    rw [List.foldl_cons, dark cell (List.mem_cons_self ..), if_neg Bool.false_ne_true]
    exact ih fun m mem => dark m (List.mem_cons_of_mem _ mem)

theorem decodeMode_of_none_lit (order : List ModeCell) {lit : Grid Bool} (dark : ∀ m, modeLit lit m = false) :
    decodeMode order lit = .off :=
  foldl_mode_of_none_lit (fun m _ => dark m) .off

/-- The last listed lit cell wins (00 R6). -/
theorem decodeMode_of_last_lit (before : List ModeCell) {m : ModeCell} {others : List ModeCell} {lit : Grid Bool}
    (shown : modeLit lit m = true) (dark : ∀ m' ∈ others, modeLit lit m' = false) :
    decodeMode (before ++ m :: others) lit = modeOfCell m := by
  rw [decodeMode, List.foldl_append, List.foldl_cons, if_pos shown, foldl_mode_of_none_lit dark]

/-- Three different modes are all three. -/
theorem mem_modePriority {p : Params} (legal : p.Legal) (m : ModeCell) : m ∈ p.modePriority := by
  obtain ⟨_, _, _, ⟨nodup, length⟩, _⟩ := legal
  have within : p.modePriority ⊆ [.normal, .nature, .sleep] := fun m' _ => by cases m' <;> simp
  have perm := (List.subperm_of_subset nodup within).perm_of_length_le (by simp [length])
  rw [perm.mem_iff]
  cases m <;> simp

/-- Settles O19: in every clause the last lit cell of the order is found and decides. -/
theorem modeDecode : Obligations.ModeDecode := by
  unfold Obligations.ModeDecode
  refine ⟨fun p lit m legal shown only => ?single, fun order lit => decodeMode_of_none_lit order,
    fun before m others lit => decodeMode_of_last_lit before, fun lit => ?default⟩
  case single =>
    obtain ⟨before, others, order⟩ := List.append_of_mem (mem_modePriority legal m)
    obtain ⟨_, _, _, ⟨nodup, _⟩, _⟩ := legal
    rw [order] at nodup ⊢
    refine decodeMode_of_last_lit before shown fun m' mem => Bool.eq_false_iff.mpr fun lit' => ?_
    obtain ⟨_, nodup, _⟩ := List.nodup_append.mp nodup
    obtain ⟨notAgain, _⟩ := List.nodup_cons.mp nodup
    exact notAgain (only m' lit' ▸ mem)
  case default =>
    simp only [decodeMode, Params.default, List.foldl_cons, List.foldl_nil, modeLit, modeOfCell]
    rfl

end Sys2Proof.Machine
end

section
/-! SUPPORT. The Command Sequencer's instructions (41_sequencer.md), each with the next state it answers. -/

namespace Sys2Proof.Machine

/-! ### Requests -/

theorem exec_tadv (wf : Bool) (s : State) :
    exec (.tadv wf) s = .next { s with toWork := advanceTimer s.params wf s.toWork } := rfl

theorem control_of_noState (p : Params) (wf : Bool) (req : CtrlReq) {s : Work} (sampling : s.proc = false)
    (unknown : noState s.ds = true) : control p wf req s = emit (.dropped .noState) s := by
  simp only [control, sampling, Bool.false_eq_true, if_false, if_pos unknown]

theorem control_of_known (p : Params) (wf : Bool) (req : CtrlReq) {s : Work} (sampling : s.proc = false)
    (known : noState s.ds = false) : control p wf req s = startDrain p (requestSymbols p s.ds req) wf s := by
  simp only [control, sampling, known, Bool.false_eq_true, if_false]

theorem advanceTimer_of_proc (p : Params) (wf : Bool) {s : Work} (busy : s.proc = true) :
    advanceTimer p wf s = emit (.dropped .busy) s := if_pos busy

theorem advanceTimer_of_not_proc (p : Params) (wf : Bool) {s : Work} (sampling : s.proc = false) :
    advanceTimer p wf s = startDrain p [.timer] wf s := by
  simp only [advanceTimer, sampling, Bool.false_eq_true, if_false]

/-- Settles O28: a sentinel in a field a request reads is what `CTRL` asks for after `PROC`. -/
theorem controlDroppedBeforeFirstWindow : Obligations.ControlDroppedBeforeFirstWindow := by
  unfold Obligations.ControlDroppedBeforeFirstWindow
  intro wf req s sampling unknown
  rw [exec_ctrl, control_of_noState s.params wf req sampling (noState_eq_true.mpr unknown)]
  rfl

theorem exec_ctrl_of_nil (wf : Bool) {req : CtrlReq} {s : State} (sampling : s.proc = false)
    (known : noState s.ds = false) (nothing : requestSymbols s.params s.ds req = []) :
    exec (.ctrl wf req) s = .next s := by
  rw [exec_ctrl, control_of_known s.params wf req sampling known, nothing, startDrain_nil]

/-- Settles O29: the list of an accepted request is what `START` is given. -/
theorem controlStartsItsDrain : Obligations.ControlStartsItsDrain := by
  unfold Obligations.ControlStartsItsDrain
  intro wf req s sampling known
  refine ⟨exec_ctrl_of_nil wf sampling known, fun b rest list => ?_⟩
  rw [exec_ctrl, control_of_known s.params wf req sampling known, list, startDrain_cons]
  rfl

/-- Settles O30: each field that names the current value adds no symbol, and an empty list starts nothing. -/
theorem noDifferenceNoPress : Obligations.NoDifferenceNoPress := by
  unfold Obligations.NoDifferenceNoPress
  intro wf req s sampling known
  rw [← onAfter_iff]
  refine ⟨exec_ctrl_of_nil wf sampling known, fun power speed osc mode => ?_⟩
  have nothing := requestSymbols_eq_nil (p := s.params) power speed osc mode
  exact ⟨nothing, exec_ctrl_of_nil wf sampling known nothing⟩

/-- Settles O32: `TADV` asks `PROC` and then starts the drain of one symbol. -/
theorem advanceTimerPressesTimer : Obligations.AdvanceTimerPressesTimer := by
  unfold Obligations.AdvanceTimerPressesTimer
  refine fun wf s => ⟨fun busy => ?_, fun sampling => ?_⟩
  · rw [exec_tadv, advanceTimer_of_proc s.params wf busy]
    rfl
  · rw [exec_tadv, advanceTimer_of_not_proc s.params wf sampling, startDrain_cons]
    rfl

/-! ### The expiry and the output words -/

theorem exec_texp (wf : Bool) (s : State) : exec (.texp wf) s = onBlock (fun p w => delayExpiry p wf w) s := rfl

/-- Settles O36: `TEXP` asks first whether the delay is armed. -/
theorem expiryNeedsAnArmedDelay : Obligations.ExpiryNeedsAnArmedDelay := by
  unfold Obligations.ExpiryNeedsAnArmedDelay
  intro wf s idle
  rw [exec_texp, onBlock_refused, delayExpiry, idle]
  rfl

theorem delayExpiry_of_press (p : Params) (wf : Bool) {s : Work} (armed : isArmed s.tmr = true)
    (press : s.phase = .press) : delayExpiry p wf s = releaseStep p wf (disarm s) := by
  simp only [delayExpiry, if_pos armed, delayElapsed, press]

theorem delayExpiry_of_gap (p : Params) (wf : Bool) {s : Work} (armed : isArmed s.tmr = true)
    (gap : s.phase = .gap) : delayExpiry p wf s = assertStep p wf (disarm s) := by
  simp only [delayExpiry, if_pos armed, delayElapsed, gap]

theorem delayExpiry_of_idle (p : Params) (wf : Bool) {s : Work} (armed : isArmed s.tmr = true)
    (idle : s.phase = .idle) : delayExpiry p wf s = .next (disarm s) := by
  simp only [delayExpiry, if_pos armed, delayElapsed, idle]

theorem releaseLine_of_press (p : Params) (wf : Bool) {s : Work} (press : s.phase = .press) :
    releaseLine p wf s = releaseStep p wf (disarm s) := if_pos press

/-- `s` after the end of the press of its front, with `rest` left in the queue (41 R100, R101). -/
def releasedTo (p : Params) (rest : List Button) (wf : Bool) (s : Work) : Work :=
  { s with
    out := 0xFFFF
    port := 0xFFFF
    q := rest
    phase := if rest = [] then .idle else .gap
    proc := if rest = [] then false else s.proc
    tmr := if rest = [] then .idle else .armed (gapCycles p)
    events := s.events ++ writeEvents 0xFFFF wf }

/-- `RELEASE` once the delay is disarmed, whether symbols are left or not. -/
theorem releaseStep_disarm {s : Work} {b : Button} {rest : List Button} (p : Params) (wf : Bool)
    (front : s.q = b :: rest) :
    releaseStep p wf (disarm s) = .next (releasedTo p rest wf s) := by
  cases rest with
  | nil => exact releaseStep_last p wf front
  | cons c others => exact releaseStep_more p wf front

/-- The assert arms the delay anew, so that disarming it first leaves no trace. -/
theorem assertFront_disarm (p : Params) (b : Button) (wf : Bool) (s : Work) :
    assertFront p b wf (disarm s) = assertFront p b wf s := by
  rw [assertFront_eq, assertFront_eq]
  rfl

/-- Settles O33: in phase PRESS the expiry is the release step. -/
theorem releasePopsAndGoesOn : Obligations.ReleasePopsAndGoesOn := by
  unfold Obligations.ReleasePopsAndGoesOn
  intro wf s b rest armed press front
  rw [exec_texp, onBlock_next ((delayExpiry_of_press s.params wf armed press).trans
    (releaseStep_disarm s.params wf front))]
  rfl

theorem exec_texp_of_gap (wf : Bool) {s : State} {b : Button} {rest : List Button} (armed : isArmed s.tmr = true)
    (gap : s.phase = .gap) (front : s.q = b :: rest) :
    exec (.texp wf) s = .next { s with toWork := assertFront s.params b wf s.toWork } := by
  rw [exec_texp, onBlock_next ((delayExpiry_of_gap s.params wf armed gap).trans
    (assertStep_cons (s := disarm s.toWork) s.params wf front)), assertFront_disarm]

/-- Settles O34: in phase GAP the expiry is the assert step; the map of lines is the configuration's. -/
theorem assertPressesTheFront : Obligations.AssertPressesTheFront := by
  unfold Obligations.AssertPressesTheFront
  refine ⟨fun wf s b rest armed gap front => ?_, fun p => ⟨rfl, rfl, rfl, rfl, rfl, rfl⟩, by decide⟩
  rw [exec_texp_of_gap wf armed gap front, assertFront_eq]
  rfl

theorem pressLine_of_due (p : Params) (wf : Bool) {s : Work} {b : Button} {rest : List Button}
    (front : s.q = b :: rest) (released : s.phase ≠ .press) :
    pressLine p (btnBitOf p b) wf s = .next (assertFront p b wf s) := by
  simp only [pressLine, front, ne_eq, released, not_false_eq_true, and_self, if_true]

theorem pressLine_of_not_due (p : Params) (wf : Bool) {s : Work} {b : Button} {rest : List Button} {line : Fin 8}
    (front : s.q = b :: rest) (notDue : line ≠ btnBitOf p b ∨ s.phase = .press) :
    pressLine p line wf s = .refused .pressNotDue := by
  simp only [pressLine, front]
  rw [if_neg]
  rintro ⟨sameLine, released⟩
  exact notDue.elim (fun other => other sameLine.symm) released

theorem pressLine_of_nil (p : Params) (line : Fin 8) (wf : Bool) {s : Work} (empty : s.q = []) :
    pressLine p line wf s = .refused .pressNotDue := by
  simp only [pressLine, empty]

/-- Settles O35: a press word is the assert step where it is due, `RELEASE` the release step. -/
theorem buttonWordsAreTheDrainsSteps : Obligations.ButtonWordsAreTheDrainsSteps := by
  unfold Obligations.ButtonWordsAreTheDrainsSteps
  refine fun wf s => ⟨fun b rest front =>
      ⟨fun released => ?press, fun line notDue => ?notDue, fun press => ?release⟩,
    fun empty line => ?noFront, fun press empty => ?nothingToPop, exec_release_of_not_press wf⟩
  case press =>
    rw [exec_pressInstr, onBlock_next (pressLine_of_due s.params wf front released), assertFront_eq]
    rfl
  case notDue => rw [exec_pressInstr, onBlock_refused, pressLine_of_not_due s.params wf front notDue]
  case release =>
    rw [exec_release, onBlock_next ((releaseLine_of_press s.params wf press).trans
      (releaseStep_disarm s.params wf front))]
    rfl
  case noFront => rw [exec_pressInstr, onBlock_refused, pressLine_of_nil s.params line wf empty]
  case nothingToPop =>
    rw [exec_release, onBlock_fault, releaseLine_of_press s.params wf press]
    simp only [releaseStep, disarm_q, empty]

/-! ### A failed write (41 R103) -/

/-- What becomes of an operation's next state `t` from `s` when its write fails, `u`: nothing was written and `u` is
`t`, or the failure is logged after the write. -/
def FailureOnlyLogs (s t u : Work) : Prop :=
  (t.events = s.events ∨ t.events = s.events ++ [.dropped .busy] ∨ t.events = s.events ++ [.dropped .noState]) ∧
    u = t ∨
  ∃ v, t.events = s.events ++ [.wr v] ∧ t.out = v ∧ t.port = v ∧
    u = { t with events := s.events ++ [.wr v, .log .wr] }

theorem failureOnlyLogs_assertFront (p : Params) (b : Button) (s : Work) :
    FailureOnlyLogs s (assertFront p b false s) (assertFront p b true s) := by
  refine .inr ⟨pressWord (btnBitOf p b), ?_⟩
  rw [assertFront_eq, assertFront_eq]
  exact ⟨rfl, rfl, rfl, rfl⟩

theorem failureOnlyLogs_startDrain (p : Params) (n : List Button) (s : Work) :
    FailureOnlyLogs s (startDrain p n false s) (startDrain p n true s) := by
  cases n with
  | nil => exact .inl ⟨.inl rfl, rfl⟩
  | cons b rest => exact failureOnlyLogs_assertFront p b { s with q := b :: rest, proc := true }

theorem failureOnlyLogs_control (p : Params) (req : CtrlReq) (s : Work) :
    FailureOnlyLogs s (control p false req s) (control p true req s) := by
  unfold control
  split_ifs
  · exact .inl ⟨.inr (.inl rfl), rfl⟩
  · exact .inl ⟨.inr (.inr rfl), rfl⟩
  · exact failureOnlyLogs_startDrain p _ s

theorem failureOnlyLogs_advanceTimer (p : Params) (s : Work) :
    FailureOnlyLogs s (advanceTimer p false s) (advanceTimer p true s) := by
  unfold advanceTimer
  split_ifs
  · exact .inl ⟨.inr (.inl rfl), rfl⟩
  · exact failureOnlyLogs_startDrain p _ s

theorem failureOnlyLogs_releaseStep {p : Params} {s t : Work} (next : releaseStep p false (disarm s) = .next t) :
    ∃ u, releaseStep p true (disarm s) = .next u ∧ FailureOnlyLogs s t u := by
  match front : s.q with
  | [] => simp [releaseStep, front] at next
  | b :: rest =>
    rw [releaseStep_disarm p false front] at next
    cases next
    exact ⟨_, releaseStep_disarm p true front, .inr ⟨0xFFFF, rfl, rfl, rfl, rfl⟩⟩

theorem failureOnlyLogs_assertStep {p : Params} {s t : Work} (next : assertStep p false (disarm s) = .next t) :
    ∃ u, assertStep p true (disarm s) = .next u ∧ FailureOnlyLogs s t u := by
  obtain ⟨b, rest, front, rfl⟩ := assertStep_cases next
  refine ⟨_, assertStep_cons p true front, ?_⟩
  rw [assertFront_disarm, assertFront_disarm]
  exact failureOnlyLogs_assertFront p b s

theorem failureOnlyLogs_delayExpiry {p : Params} {s t : Work} (next : delayExpiry p false s = .next t) :
    ∃ u, delayExpiry p true s = .next u ∧ FailureOnlyLogs s t u := by
  obtain ⟨armed, ⟨press, released⟩ | ⟨gap, asserted⟩ | ⟨idle, rfl⟩⟩ := delayExpiry_cases next
  · rw [delayExpiry_of_press p true armed press]
    exact failureOnlyLogs_releaseStep released
  · rw [delayExpiry_of_gap p true armed gap]
    exact failureOnlyLogs_assertStep asserted
  · exact ⟨_, delayExpiry_of_idle p true armed idle, .inl ⟨.inl rfl, rfl⟩⟩

/-- An operation of the block whose failed write only logs is an instruction whose failed write only logs. -/
theorem FailureOnlyLogs.outcome {s : State} {t u : Work} (logs : FailureOnlyLogs s.toWork t u)
    {o : Host.Outcome State Fault Refusal} (failed : o = .next { s with toWork := u }) :
    (t.events = s.events ∨ t.events = s.events ++ [.dropped .busy] ∨ t.events = s.events ++ [.dropped .noState]) ∧
      o = .next { s with toWork := t } ∨
    ∃ v, t.events = s.events ++ [.wr v] ∧ t.out = v ∧ t.port = v ∧
      o = .next { s with toWork := { t with events := s.events ++ [.wr v, .log .wr] } } := by
  subst failed
  obtain ⟨quiet, rfl⟩ | ⟨v, written, out, port, rfl⟩ := logs
  · exact .inl ⟨quiet, rfl⟩
  · exact .inr ⟨v, written, out, port, rfl⟩

/-- Settles O37: each of the three operations writes by the shared steps of the drain, or not at all. -/
theorem writeFailureOnlyLogs : Obligations.WriteFailureOnlyLogs := by
  unfold Obligations.WriteFailureOnlyLogs
  rintro withAnswer s t (rfl | rfl | ⟨req, rfl⟩) next
  · cases next
    exact (failureOnlyLogs_advanceTimer s.params s.toWork).outcome rfl
  · rw [exec_texp] at next
    obtain ⟨w, expired, rfl⟩ := onBlock_cases next
    obtain ⟨u, failed, logs⟩ := failureOnlyLogs_delayExpiry expired
    exact logs.outcome ((exec_texp true s).trans (onBlock_next failed))
  · cases next
    exact (failureOnlyLogs_control s.params req s.toWork).outcome rfl

end Sys2Proof.Machine
end

section
/-! SUPPORT. Instructions one after another: a whole drain (41 R104) and a whole window (40 R73, 70 R149). -/

namespace Sys2Proof.Machine

/-! ### Runs -/

theorem execAll_cons_of_next {i : Instr} {rest : List Instr} {s t : State} (next : exec i s = .next t) :
    execAll (i :: rest) s = execAll rest t := by
  simp only [execAll, next]

theorem execAll_append_of_next {xs : List Instr} (ys : List Instr) {s t : State} (next : execAll xs s = .next t) :
    execAll (xs ++ ys) s = execAll ys t := by
  induction xs generalizing s with
  | nil => cases next; rfl
  | cons i rest ih =>
    rw [execAll] at next
    split at next
    · rename_i u first
      rw [List.cons_append, execAll_cons_of_next first]
      exact ih next
    · cases next
    · cases next

/-! ### The writes among some events -/

@[simp] theorem writesOf_append (es fs : List Event) : writesOf (es ++ fs) = writesOf es ++ writesOf fs := by
  induction es with
  | nil => rfl
  | cons e rest ih => cases e <;> simp [writesOf, ih]

@[simp] theorem writesOf_writeEvents (v : Word16) (wf : Bool) : writesOf (writeEvents v wf) = [v] := by
  cases wf <;> rfl

/-! ### The stations of a drain -/

/-- `s` with the drain at the press of `b`, `rest` behind it, `left` cycles to go and `es` emitted since. -/
def State.pressing (s : State) (b : Button) (rest : List Button) (left : Nat) (es : List Event) : State :=
  { s with
    q := b :: rest, proc := true, phase := .press, tmr := .armed left,
    out := pressWord (btnBitOf s.params b), port := pressWord (btnBitOf s.params b), events := s.events ++ es }

/-- `s` with the drain in the gap before `b`, `rest` behind it, `left` cycles to go and `es` emitted since. -/
def State.pausing (s : State) (b : Button) (rest : List Button) (left : Nat) (es : List Event) : State :=
  { s with
    q := b :: rest, proc := true, phase := .gap, tmr := .armed left, out := 0xFFFF, port := 0xFFFF,
    events := s.events ++ es }

/-- `s` with the drain over and `es` emitted since. -/
def State.drained (s : State) (es : List Event) : State :=
  { s with
    q := [], proc := false, phase := .idle, tmr := .idle, out := 0xFFFF, port := 0xFFFF, events := s.events ++ es }

theorem exec_ctrl_of_cons {wf : Bool} {req : CtrlReq} {s : State} {b : Button} {rest : List Button}
    (sampling : s.proc = false) (known : noState s.ds = false)
    (list : requestSymbols s.params s.ds req = b :: rest) :
    exec (.ctrl wf req) s =
      .next (s.pressing b rest (pressCycles s.params) (writeEvents (pressWord (btnBitOf s.params b)) wf)) := by
  obtain ⟨_, starts⟩ := controlStartsItsDrain wf req s sampling known
  exact starts b rest list

section Stations
variable (wf : Bool) (s : State) (b c : Button) (rest : List Button) (left : Nat) (es : List Event)

theorem exec_texp_pressing_last :
    exec (.texp wf) (s.pressing b [] left es) = .next (s.drained (es ++ writeEvents 0xFFFF wf)) := by
  rw [releasePopsAndGoesOn wf (s.pressing b [] left es) b [] rfl rfl rfl, State.drained, ← List.append_assoc]
  rfl

theorem exec_texp_pressing_more :
    exec (.texp wf) (s.pressing b (c :: rest) left es) =
      .next (s.pausing c rest (gapCycles s.params) (es ++ writeEvents 0xFFFF wf)) := by
  rw [releasePopsAndGoesOn wf (s.pressing b (c :: rest) left es) b (c :: rest) rfl rfl rfl, State.pausing,
    ← List.append_assoc]
  rfl

theorem exec_texp_pausing :
    exec (.texp wf) (s.pausing b rest left es) =
      .next (s.pressing b rest (pressCycles s.params)
        (es ++ writeEvents (pressWord (btnBitOf s.params b)) wf)) := by
  rw [exec_texp_of_gap (s := s.pausing b rest left es) wf rfl rfl rfl, assertFront_eq, State.pressing,
    ← List.append_assoc]
  rfl

end Stations

/-! ### A whole drain -/

/-- From the press of the front, the expiries release it, then press and release each symbol behind it. -/
theorem execAll_drain (answers : List Bool) (s : State) (b : Button) (rest : List Button) (left : Nat)
    (es : List Event) (enough : answers.length = 2 * rest.length + 1) :
    ∃ fs, execAll (answers.map .texp) (s.pressing b rest left es) = .next (s.drained (es ++ fs)) ∧
      writesOf fs = 0xFFFF :: rest.flatMap fun b => [pressWord (btnBitOf s.params b), 0xFFFF] := by
  induction rest generalizing answers b left es with
  | nil =>
    obtain ⟨answer, rfl⟩ := List.length_eq_one_iff.mp enough
    exact ⟨_, execAll_cons_of_next (exec_texp_pressing_last answer s b left es), writesOf_writeEvents _ _⟩
  | cons c others ih =>
    match answers, enough with
    | first :: second :: answers, enough =>
      obtain ⟨fs, drained, writes⟩ := ih answers c (pressCycles s.params)
        (es ++ writeEvents 0xFFFF first ++ writeEvents (pressWord (btnBitOf s.params c)) second)
        (by simp only [List.length_cons] at enough; omega)
      refine ⟨writeEvents 0xFFFF first ++ (writeEvents (pressWord (btnBitOf s.params c)) second ++ fs), ?_,
        by simp [writes]⟩
      rw [List.map_cons, execAll_cons_of_next (exec_texp_pressing_more first s b c others left es), List.map_cons,
        execAll_cons_of_next (exec_texp_pausing second s c others _ _), drained]
      simp only [List.append_assoc]

/-- Settles O38: the request presses the first symbol, and the expiries do the rest. -/
theorem drainWritesEverySymbolInOrder : Obligations.DrainWritesEverySymbolInOrder := by
  unfold Obligations.DrainWritesEverySymbolInOrder
  intro s wf req answers sampling known nonempty enough
  obtain ⟨b, rest, list⟩ := List.exists_cons_of_ne_nil nonempty
  rw [list] at enough ⊢
  obtain ⟨es, drained, writes⟩ := execAll_drain answers s b rest (pressCycles s.params)
    (writeEvents (pressWord (btnBitOf s.params b)) wf) (by simp only [List.length_cons] at enough; omega)
  refine ⟨writeEvents (pressWord (btnBitOf s.params b)) wf ++ es, ?_, by simp [writes]⟩
  rw [execAll_cons_of_next (exec_ctrl_of_cons sampling known list), drained, State.drained, sampling]

end Sys2Proof.Machine
end

section
/-! SUPPORT. Polls one after another (40 R69 to R74): what they count inside a window, and a whole window with
failed polls anywhere in it. -/

namespace Sys2Proof.Machine

/-! ### Counting -/

/-- The counters after some samples. -/
def accumAll (p : Params) (raws : List Word16) (acc : Grid Count) : Grid Count :=
  raws.foldl (fun acc raw => accum p raw acc) acc

@[simp] theorem accumAll_nil (p : Params) (acc : Grid Count) : accumAll p [] acc = acc := rfl

@[simp] theorem accumAll_cons (p : Params) (raw : Word16) (raws : List Word16) (acc : Grid Count) :
    accumAll p (raw :: raws) acc = accumAll p raws (accum p raw acc) := rfl

theorem accumAll_append (p : Params) (raws raws' : List Word16) (acc : Grid Count) :
    accumAll p (raws ++ raws') acc = accumAll p raws' (accumAll p raws acc) := List.foldl_append

/-- Each counter counts the samples that light its cell. -/
theorem gridGet_accumAll (p : Params) (raws : List Word16) (acc : Grid Count) (r : Row) (c : Col) :
    gridGet (accumAll p raws acc) r c =
      gridGet acc r c + BitVec.ofNat 6 (raws.countP fun raw => litNow p raw r c) := by
  induction raws generalizing acc with
  | nil => simp
  | cons raw rest ih =>
    rw [accumAll_cons, ih, gridGet_accum, List.countP_cons]
    split_ifs
    · rw [add_assoc, add_comm (1 : Count), BitVec.ofNat_add]
      rfl
    · rfl

/-- What a window of samples decodes to on top of the counts `acc`. -/
def windowDs (p : Params) (raws : List Word16) (acc : Grid Count) : Decoded :=
  decodeWindow p (thresh (accumAll p raws acc))

/-- From empty counters no counter wraps within a window, and the verdicts are those of the samples. -/
theorem windowDs_of_empty (p : Params) {raws : List Word16} (window : raws.length = 32) {acc : Grid Count}
    (empty : ∀ r c, gridGet acc r c = 0) :
    windowDs p raws acc =
      decodeWindow p (gridOf fun r c => decide (2 < raws.countP fun raw => litNow p raw r c)) := by
  rw [windowDs]
  congr 1
  refine grid_ext fun r c => ?_
  have few : raws.countP (fun raw => litNow p raw r c) ≤ 32 := window ▸ List.countP_le_length
  rw [gridGet_thresh, gridGet_gridOf, gridGet_accumAll, empty, zero_add, BitVec.toNat_ofNat,
    Nat.mod_eq_of_lt (by omega)]

/-! ### The reads -/

/-- The events of the reads that failed (40 R69). -/
def failedReads : List (Option Word16) → List Event
  | [] => []
  | some _ :: rest => failedReads rest
  | none :: rest => .log .rd :: failedReads rest

@[simp] theorem goodSamples_map_some (raws : List Word16) : goodSamples (raws.map some) = raws := by
  induction raws with
  | nil => rfl
  | cons raw rest ih => rw [List.map_cons, goodSamples, ih]

@[simp] theorem failedReads_map_some (raws : List Word16) : failedReads (raws.map some) = [] := by
  induction raws with
  | nil => rfl
  | cons raw rest ih => rw [List.map_cons, failedReads, ih]

theorem map_pollOk_eq (raws : List Word16) : raws.map Instr.pollOk = (raws.map some).map pollOf := by
  rw [List.map_map]
  rfl

/-! ### Polls inside a window, and the last one -/

/-- `s` after the given reads, none of which completes a window. -/
def State.polled (s : State) (polls : List (Option Word16)) : State :=
  { s with
    acc := accumAll s.params (goodSamples polls) s.acc
    wcnt := s.wcnt + BitVec.ofNat 6 (goodSamples polls).length
    events := s.events ++ failedReads polls }

/-- `s` after the window's samples `raws` have completed it, `es` emitted since. -/
def State.windowEnd (s : State) (raws : List Word16) (es : List Event) : State :=
  { s with acc := gridOf fun _ _ => 0, wcnt := 0, ds := windowDs s.params raws s.acc, events := s.events ++ es }

theorem exec_pollOk_inside {s : State} (raw : Word16) (sampling : s.proc = false) (inside : s.wcnt.toNat < 31) :
    exec (.pollOk raw) s = .next { s with acc := accum s.params raw s.acc, wcnt := s.wcnt + 1 } := by
  rw [exec_pollOk, pollSample_inside s.params raw sampling (by bv_omega)]
  rfl

theorem exec_pollOk_last {s : State} (raw : Word16) (sampling : s.proc = false) (last : s.wcnt = 31) :
    exec (.pollOk raw) s =
      .next (s.windowEnd [raw] (windowEvents s.ds (windowDs s.params [raw] s.acc))) := by
  rw [exec_pollOk, pollSample_last s.params raw sampling last, finalize_eq]
  rfl

theorem exec_pollFail_of_not_proc {s : State} (sampling : s.proc = false) :
    exec .pollFail s = .next { s with events := s.events ++ [.log .rd] } := by
  rw [exec_pollFail, pollFailed_of_not_proc sampling]
  rfl

theorem execAll_polls_inside {polls : List (Option Word16)} {s : State} (sampling : s.proc = false)
    (inside : s.wcnt.toNat + (goodSamples polls).length ≤ 31) :
    execAll (polls.map pollOf) s = .next (s.polled polls) := by
  induction polls generalizing s with
  | nil => simp [execAll, State.polled, goodSamples, failedReads]
  | cons poll rest ih =>
    cases poll with
    | none =>
      rw [List.map_cons, pollOf, execAll_cons_of_next (exec_pollFail_of_not_proc sampling),
        ih (s := { s with events := s.events ++ [.log .rd] }) sampling inside]
      simp only [State.polled, goodSamples, failedReads, List.append_assoc, List.singleton_append]
    | some raw =>
      simp only [goodSamples, List.length_cons] at inside
      rw [List.map_cons, pollOf, execAll_cons_of_next (exec_pollOk_inside raw sampling (by omega)),
        ih (s := { s with acc := accum s.params raw s.acc, wcnt := s.wcnt + 1 }) sampling (by bv_omega)]
      simp [State.polled, goodSamples, failedReads, BitVec.ofNat_add, BitVec.add_assoc, BitVec.add_comm]

/-! ### A whole window -/

/-- The reads up to the last good one, and the failed ones behind it. -/
theorem exists_last_good {polls : List (Option Word16)} (someGood : goodSamples polls ≠ []) :
    ∃ before raw others, polls = before ++ some raw :: others ∧ goodSamples others = [] ∧
      goodSamples polls = goodSamples before ++ [raw] ∧
      failedReads polls = failedReads before ++ failedReads others := by
  induction polls with
  | nil => exact absurd rfl someGood
  | cons poll rest ih =>
    by_cases last : goodSamples rest = []
    · cases poll with
      | none => exact absurd last someGood
      | some raw => exact ⟨[], raw, rest, rfl, last, by simp [goodSamples, last], rfl⟩
    · obtain ⟨before, raw, others, split, noneGood, good, failed⟩ := ih last
      refine ⟨poll :: before, raw, others, by rw [split, List.cons_append], noneGood, ?_, ?_⟩ <;>
        cases poll <;> simp [goodSamples, failedReads, good, failed]

/-- The reads that complete a window clear the counters, store what they decode to, and report it, whatever reads
fail before or after the last good one. -/
theorem execAll_polls_window {polls : List (Option Word16)} {s : State} (sampling : s.proc = false)
    (inside : s.wcnt.toNat ≤ 31) (full : s.wcnt.toNat + (goodSamples polls).length = 32) :
    ∃ before others, failedReads polls = before ++ others ∧
      execAll (polls.map pollOf) s = .next (s.windowEnd (goodSamples polls)
        (before ++ windowEvents s.ds (windowDs s.params (goodSamples polls) s.acc) ++ others)) := by
  obtain ⟨before, raw, others, rfl, noneGood, good, failed⟩ :=
    exists_last_good (polls := polls) (List.ne_nil_of_length_pos (by omega))
  refine ⟨_, _, failed, ?_⟩
  rw [good] at full ⊢
  rw [List.length_append, List.length_singleton] at full
  have counted : execAll (before.map pollOf) s = .next (s.polled before) :=
    execAll_polls_inside sampling (by omega)
  have last : (s.polled before).wcnt = 31 := by
    show s.wcnt + BitVec.ofNat 6 (goodSamples before).length = 31
    bv_omega
  rw [List.map_append, execAll_append_of_next _ counted, List.map_cons, pollOf,
    execAll_cons_of_next (exec_pollOk_last raw (s := s.polled before) sampling last),
    execAll_polls_inside (s := (s.polled before).windowEnd _ _) sampling (by rw [noneGood]; show 0 + 0 ≤ 31; omega)]
  simp [State.polled, State.windowEnd, noneGood, windowDs, accumAll_append]

/-- Settles O22: from empty counters the verdicts are those of the 32 good samples. -/
theorem windowDecodesThirtyTwoGoodSamples : Obligations.WindowDecodesThirtyTwoGoodSamples := by
  unfold Obligations.WindowDecodesThirtyTwoGoodSamples
  intro s polls sampling noCount empty window
  obtain ⟨before, others, _, done⟩ := execAll_polls_window (polls := polls) sampling (by simp [noCount])
    (by simp [noCount, window])
  have cleared : s.acc = gridOf fun _ _ => 0 := grid_ext fun r c => by rw [empty, gridGet_gridOf]
  rw [State.windowEnd, windowDs_of_empty s.params window empty, ← cleared, ← noCount] at done
  exact ⟨_, done⟩

/-- Without a failed read nothing but the window's comparison is reported. -/
theorem execAll_pollOks_window {raws : List Word16} {s : State} (sampling : s.proc = false)
    (inside : s.wcnt.toNat ≤ 31) (full : s.wcnt.toNat + raws.length = 32) :
    execAll (raws.map .pollOk) s = .next (s.windowEnd raws (windowEvents s.ds (windowDs s.params raws s.acc))) := by
  obtain ⟨before, others, noneFailed, done⟩ := execAll_polls_window (polls := raws.map some) sampling inside
    (by rw [goodSamples_map_some, full])
  rw [failedReads_map_some] at noneFailed
  obtain ⟨rfl, rfl⟩ := List.append_eq_nil_iff.mp noneFailed.symm
  simpa only [map_pollOk_eq, goodSamples_map_some, List.nil_append, List.append_nil] using done

theorem execAll_pollOks_whole_window {raws : List Word16} {s : State} (sampling : s.proc = false)
    (noCount : s.wcnt = 0) (window : raws.length = 32) :
    execAll (raws.map .pollOk) s = .next (s.windowEnd raws (windowEvents s.ds (windowDs s.params raws s.acc))) :=
  execAll_pollOks_window sampling (by simp [noCount]) (by simp [noCount, window])

theorem execAll_pollOks_inside {raws : List Word16} {s : State} (sampling : s.proc = false)
    (inside : s.wcnt.toNat + raws.length ≤ 31) :
    execAll (raws.map .pollOk) s = .next (s.polled (raws.map some)) := by
  rw [map_pollOk_eq, execAll_polls_inside sampling (by rw [goodSamples_map_some]; exact inside)]

/-- Against the sentinels every window reports (70 R131). -/
theorem windowEvents_unknownDs {d : Decoded} (real : d.real) :
    windowEvents unknownDs d = [.notify d.speed d.osc d.mode, .timerText d.timer] := by
  obtain ⟨speed, _, _, timer⟩ := real
  simp [windowEvents_eq, unknownDs, speed, timer]

theorem resetWith_ds_of_no_snapshot {p : Params} (noSnapshot : p.restore = none) (moves : List HostMove) :
    (State.resetWith p moves).ds = unknownDs := by
  rw [show (State.resetWith p moves).ds = p.restore.getD unknownDs from rfl, noSnapshot, Option.getD_none]

/-- Settles O23: the window after reset is compared with the sentinels, and before its end they stand. -/
theorem coldStartAlwaysReports : Obligations.ColdStartAlwaysReports := by
  unfold Obligations.ColdStartAlwaysReports
  intro p moves raws noSnapshot
  have unknown := resetWith_ds_of_no_snapshot noSnapshot moves
  refine ⟨fun window => ?window, fun fewer => ?before⟩
  case window =>
    have done := execAll_pollOks_whole_window (s := State.resetWith p moves) rfl rfl window
    have real : (windowDs (State.resetWith p moves).params raws (State.resetWith p moves).acc).real :=
      decodeWindow_real ..
    rw [unknown, windowEvents_unknownDs real] at done
    exact ⟨_, _, done, real, rfl, rfl⟩
  case before =>
    have polled := execAll_pollOks_inside (s := State.resetWith p moves) (raws := raws) rfl
      (by rw [show (State.resetWith p moves).wcnt.toNat = 0 from rfl]; omega)
    have noEvents : ((State.resetWith p moves).polled (raws.map some)).events = [] := failedReads_map_some raws
    refine ⟨_, polled, noEvents, unknown, fun wf req => ?_⟩
    rw [controlDroppedBeforeFirstWindow wf req ((State.resetWith p moves).polled (raws.map some)) rfl
      (.inl (congrArg Decoded.speed unknown)), noEvents, List.nil_append]

theorem exists_append_of_le_length {n : Nat} {raws : List Word16} (enough : n ≤ raws.length) :
    ∃ front back, raws = front ++ back ∧ front.length = n :=
  ⟨_, _, (List.take_append_drop n raws).symm, List.length_take_of_le enough⟩

/-- Settles O24: the first polls end the interrupted window, the next 32 are a window of their own, and the rest
begin a third one. -/
theorem sixtyFourPollsSettle : Obligations.SixtyFourPollsSettle := by
  unfold Obligations.SixtyFourPollsSettle
  intro s raws inv sampling length
  obtain ⟨bound, _⟩ := inv.countsBounded
  have inside : s.wcnt.toNat ≤ 31 := bound
  obtain ⟨before, rest, rfl, beforeLength⟩ :=
    exists_append_of_le_length (n := 32 - s.wcnt.toNat) (raws := raws) (by omega)
  rw [List.length_append] at length
  obtain ⟨window, others, rfl, windowLength⟩ := exists_append_of_le_length (n := 32) (raws := rest) (by omega)
  rw [List.length_append] at length
  have first := execAll_pollOks_window (raws := before) sampling inside (by omega)
  generalize windowEvents s.ds _ = reported at first
  have second := execAll_pollOks_whole_window (s := s.windowEnd before reported) sampling rfl windowLength
  generalize windowEvents _ _ = reported' at second
  have third := execAll_pollOks_inside (raws := others)
    (s := (s.windowEnd before reported).windowEnd window reported') sampling (by show 0 + others.length ≤ 31; omega)
  have run := (execAll_append_of_next _ first).trans ((execAll_append_of_next _ second).trans third)
  rw [← List.map_append, ← List.map_append] at run
  exact ⟨before, window, others, _, (List.append_assoc ..).symm, windowLength, by omega, run,
    windowDs_of_empty s.params windowLength (gridGet_gridOf fun _ _ => 0)⟩

end Sys2Proof.Machine
end

section
/-! SUPPORT. What the Sequencer's operations can do to the block, said once, and how a property of the block that
every operation keeps is kept by every instruction and every clock cycle. -/

namespace Sys2Proof.Machine

/-! ### The moves of the Sequencer -/

/-- What an answered operation of the Sequencer has done: nothing, a drop, the start of a drain, the press of the
front, its release, or (log 10) no more than disarm. -/
inductive SequencerMove (p : Params) (s t : Work) : Prop where
  | stayed (eq : t = s)
  | dropped (why : DropReason) (eq : t = emit (.dropped why) s)
  | started (wf : Bool) (b : Button) (rest : List Button) (sampling : s.proc = false)
      (short : (b :: rest).length ≤ Config.qDepth) (eq : t = startDrain p (b :: rest) wf s)
  | pressed (wf : Bool) (b : Button) (rest : List Button) (front : s.q = b :: rest) (notPress : s.phase ≠ .press)
      (eq : t = assertFront p b wf s)
  | released (wf : Bool) (b : Button) (rest : List Button) (front : s.q = b :: rest) (press : s.phase = .press)
      (eq : t = releasedTo p rest wf s)
  | disarmed (armed : isArmed s.tmr = true) (idle : s.phase = .idle) (eq : t = disarm s)

theorem control_move (p : Params) (wf : Bool) (req : CtrlReq) (s : Work) :
    SequencerMove p s (control p wf req s) := by
  obtain ⟨_, busy⟩ | ⟨_, _, unknown⟩ | ⟨sampling, known, started⟩ := control_cases p wf req s
  · exact .dropped .busy busy
  · exact .dropped .noState unknown
  · obtain ⟨_, nothing⟩ | ⟨b, rest, list, drain⟩ := startDrain_cases p (requestSymbols p s.ds req) wf s
    · exact .stayed (started.trans nothing)
    · have short := length_requestSymbols_le (p := p) (req := req) known
      rw [list] at short started
      exact .started wf b rest sampling short started

theorem advanceTimer_move (p : Params) (wf : Bool) (s : Work) : SequencerMove p s (advanceTimer p wf s) := by
  obtain ⟨_, busy⟩ | ⟨sampling, started⟩ := advanceTimer_cases p wf s
  · exact .dropped .busy busy
  · exact .started wf .timer [] sampling (by decide) started

theorem releaseStep_move {p : Params} {wf : Bool} {s t : Work} (press : s.phase = .press)
    (next : releaseStep p wf (disarm s) = .next t) : SequencerMove p s t := by
  match front : s.q with
  | [] => simp [releaseStep, front] at next
  | b :: rest =>
    rw [releaseStep_disarm p wf front] at next
    cases next
    exact .released wf b rest front press rfl

theorem delayExpiry_move {p : Params} {wf : Bool} {s t : Work} (next : delayExpiry p wf s = .next t) :
    SequencerMove p s t := by
  obtain ⟨armed, ⟨press, released⟩ | ⟨gap, asserted⟩ | ⟨idle, eq⟩⟩ := delayExpiry_cases next
  · exact releaseStep_move press released
  · obtain ⟨b, rest, front, eq⟩ := assertStep_cases asserted
    rw [assertFront_disarm] at eq
    exact .pressed wf b rest front (by simp [gap]) eq
  · exact .disarmed armed idle eq

theorem pressLine_move {p : Params} {line : Fin 8} {wf : Bool} {s t : Work} (next : pressLine p line wf s = .next t) :
    SequencerMove p s t := by
  obtain ⟨b, rest, front, _, notPress, eq⟩ := pressLine_cases next
  exact .pressed wf b rest front notPress eq

theorem releaseLine_move {p : Params} {wf : Bool} {s t : Work} (next : releaseLine p wf s = .next t) :
    SequencerMove p s t := by
  obtain ⟨press, released⟩ := releaseLine_cases next
  exact releaseStep_move press released

/-- An answered instruction was a poll, a failed poll or a move of the Sequencer. -/
theorem Did.cases {i : Instr} {p : Params} {s t : Work} (did : Did i p s t) :
    (∃ raw, t = pollSample p raw s) ∨ t = pollFailed s ∨ SequencerMove p s t := by
  cases did with
  | poll raw _ eq => exact .inl ⟨raw, eq⟩
  | pollFail _ eq => exact .inr (.inl eq)
  | ctrl wf req _ eq => exact .inr (.inr (eq ▸ control_move p wf req s))
  | tadv wf _ eq => exact .inr (.inr (eq ▸ advanceTimer_move p wf s))
  | texp wf _ eq => exact .inr (.inr (delayExpiry_move eq))
  | press line wf _ eq => exact .inr (.inr (pressLine_move eq))
  | release wf _ eq => exact .inr (.inr (releaseLine_move eq))

/-! ### The stages of a cycle's requests (70 R148) -/

/-- The `CTRL` of a cycle, if there is one. -/
def ctrlStage (p : Params) (pins : Pins) (s : Work) : Work :=
  if pins.ctrlValid then control p pins.wrFail (decodeCtrlw pins.ctrlReq) s else s

/-- The `TADV` of a cycle, if there is one. -/
def tadvStage (p : Params) (pins : Pins) (s : Work) : Work :=
  if pins.tadvValid then advanceTimer p pins.wrFail s else s

/-- The poll of a cycle, if there is one. -/
def pollStage (p : Params) (pins : Pins) (s : Work) : Work :=
  if pins.pollValid then (if pins.pollOk then pollSample p pins.pollData s else pollFailed s) else s

theorem requestsOf_eq_stages (p : Params) (pins : Pins) (s : Work) :
    requestsOf p pins s = pollStage p pins (tadvStage p pins (ctrlStage p pins s)) := rfl

/-! ### Properties every operation keeps -/

/-- A property of the block that each operation keeps, and the delay's counting. -/
structure Kept (p : Params) (P : Work → Prop) : Prop where
  polled : ∀ {s} raw, P s → P (pollSample p raw s)
  failed : ∀ {s}, P s → P (pollFailed s)
  moved : ∀ {s t}, SequencerMove p s t → P s → P t
  ticked : ∀ {s}, P s → P { s with tmr := tickDelay s.tmr }

section Kept
variable {P : Work → Prop}

theorem Kept.exec {i : Instr} {s t : State} (kept : Kept s.params P) (next : exec i s = .next t) (h : P s.toWork) :
    P t.toWork := by
  obtain ⟨w, rfl, did⟩ := exec_did next
  obtain ⟨raw, rfl⟩ | rfl | move := did.cases
  · exact kept.polled raw h
  · exact kept.failed h
  · exact kept.moved move h

theorem Kept.requestsOf {p : Params} (kept : Kept p P) (pins : Pins) {s : Work} (h : P s) :
    P (requestsOf p pins s) := by
  have ctrl : P (ctrlStage p pins s) := by
    unfold ctrlStage
    split_ifs
    · exact kept.moved (control_move ..) h
    · exact h
  have tadv : P (tadvStage p pins (ctrlStage p pins s)) := by
    unfold tadvStage
    split_ifs
    · exact kept.moved (advanceTimer_move ..) ctrl
    · exact ctrl
  rw [requestsOf_eq_stages, pollStage]
  split_ifs
  · exact kept.polled _ tadv
  · exact kept.failed tadv
  · exact tadv

theorem Kept.runCycle {p : Params} (kept : Kept p P) {pins : Pins} {s t : Work} (next : runCycle p pins s = .next t)
    (h : P s) : P t := by
  have requests := kept.requestsOf pins h
  obtain ⟨_, expired⟩ | ⟨_, _, ticked⟩ | ⟨_, _, idle⟩ := runCycle_cases p pins s
  · exact kept.moved (delayExpiry_move (expired ▸ next)) requests
  · cases ticked.symm.trans next
    exact kept.ticked requests
  · cases idle.symm.trans next
    exact requests

end Kept

/-- An answered clock cycle out of reset is a cycle of the block, under the configuration as the pin has it. -/
theorem clockCycle_cases {pins : Pins} {s t : State} (running : pins.rst = false) (next : clockCycle pins s = .next t) :
    RunningPins pins s ∧ ∃ w, runCycle s.params pins s.toWork = .next w ∧ t = { s with toWork := w } := by
  unfold clockCycle at next
  rw [running, if_neg Bool.false_ne_true] at next
  split_ifs at next with changed
  exact ⟨⟨running, not_not.mp changed⟩, onBlock_cases next⟩

/-! ### The configuration -/

/-- Settles O52: an operation of the block cannot reach the configuration, and a cycle out of reset is one. -/
theorem configurationIsConstant : Obligations.ConfigurationIsConstant := by
  unfold Obligations.ConfigurationIsConstant
  refine ⟨fun i s t next => ?exec, fun pins s t running next => ?clock⟩
  case exec =>
    obtain ⟨w, rfl, _⟩ := exec_did next
    rfl
  case clock =>
    obtain ⟨⟨_, pin⟩, w, _, rfl⟩ := clockCycle_cases running next
    exact ⟨rfl, pin⟩

/-! ### What an operation leaves alone -/

theorem pollSample_frame (p : Params) (raw : Word16) (s : Work) :
    ∃ acc wcnt ds es, pollSample p raw s = { s with acc := acc, wcnt := wcnt, ds := ds, events := s.events ++ es } ∧
      writesOf es = [] ∧ (s.wcnt ≠ 31 → ds = s.ds) ∧ (ds = s.ds ∨ ds.real) := by
  obtain ⟨_, same⟩ | ⟨_, _, counted⟩ | ⟨_, last, finalized⟩ := pollSample_cases p raw s
  · exact ⟨s.acc, s.wcnt, s.ds, [], by simp [same], rfl, fun _ => rfl, .inl rfl⟩
  · exact ⟨_, _, s.ds, [], by rw [counted, List.append_nil, countSample], rfl, fun _ => rfl, .inl rfl⟩
  · refine ⟨_, _, _, _, by rw [finalized, finalize_eq]; rfl, ?noWrite, fun inside => ?inside,
      .inr (decodeWindow_real ..)⟩
    case noWrite =>
      unfold windowEvents
      split_ifs <;> rfl
    case inside => exact absurd ((wcnt_succ_eq_window _).mp last) inside

theorem pollFailed_frame (s : Work) :
    ∃ es, pollFailed s = { s with events := s.events ++ es } ∧ writesOf es = [] := by
  obtain ⟨_, same⟩ | ⟨_, logged⟩ := pollFailed_cases s
  · exact ⟨[], by simp [same], rfl⟩
  · exact ⟨[.log .rd], logged, rfl⟩

theorem SequencerMove.frame {p : Params} {s t : Work} (move : SequencerMove p s t) :
    t.acc = s.acc ∧ t.wcnt = s.wcnt ∧ t.ds = s.ds := by
  cases move with
  | stayed eq | dropped _ eq | disarmed _ _ eq | pressed _ _ _ _ _ eq => simp [eq]
  | released _ _ _ _ _ eq => simp [eq, releasedTo]
  | started _ _ _ _ _ eq => simp [eq, startDrain_cons]

/-- Settles O39: a poll is its frame, and `DS` is stored at a window end alone. -/
theorem decoderFrame : Obligations.DecoderFrame := by
  unfold Obligations.DecoderFrame
  intro i s t decoder next
  obtain rfl | ⟨raw, kind⟩ := isDecoderInstr_cases decoder
  · obtain ⟨es, failed, _⟩ := pollFailed_frame s.toWork
    rw [exec_pollFail, failed] at next
    cases next
    exact ⟨rfl, fun _ => rfl⟩
  · obtain ⟨acc, wcnt, ds, es, polled, _, inside, _⟩ := pollSample_frame s.params raw s.toWork
    rw [exec_sample kind, polled] at next
    cases next
    exact ⟨rfl, inside⟩

/-- Settles O40: an instruction that is no poll is a move of the Sequencer. -/
theorem sequencerFrame : Obligations.SequencerFrame := by
  unfold Obligations.SequencerFrame
  intro i s t sequencer next
  obtain ⟨w, rfl, did⟩ := exec_did next
  have move : SequencerMove s.params s.toWork w := by
    cases did with
    | poll raw kind eq =>
      obtain polled | pattern := kind
      · exact absurd (.inr (.inl ⟨raw, polled⟩)) sequencer
      · exact absurd (.inr (.inr pattern)) sequencer
    | pollFail kind eq => exact absurd (.inl kind) sequencer
    | ctrl wf req _ eq => exact eq ▸ control_move ..
    | tadv wf _ eq => exact eq ▸ advanceTimer_move ..
    | texp wf _ eq => exact delayExpiry_move eq
    | press line wf _ eq => exact pressLine_move eq
    | release wf _ eq => exact releaseLine_move eq
  obtain ⟨acc, wcnt, ds⟩ := move.frame
  exact state_ext acc wcnt ds rfl rfl rfl rfl rfl rfl rfl rfl rfl

/-! ### Sentinels -/

theorem kept_real (p : Params) : Kept p fun w => w.ds.real where
  polled := fun {s} raw real => by
    obtain ⟨acc, wcnt, ds, es, polled, _, _, same | decoded⟩ := pollSample_frame p raw s
    · rw [polled]
      exact same ▸ real
    · rw [polled]
      exact decoded
  failed := fun {s} real => by
    obtain ⟨es, failed, _⟩ := pollFailed_frame s
    rw [failed]
    exact real
  moved := fun move real => by
    obtain ⟨_, _, ds⟩ := move.frame
    rw [ds]
    exact real
  ticked := id

/-- Settles O51: the Decoder stores real values, and nothing else stores any. -/
theorem sentinelsNeverReturn : Obligations.SentinelsNeverReturn := by
  unfold Obligations.SentinelsNeverReturn
  refine ⟨fun i s t next real => (kept_real s.params).exec next real, fun pins s t running next real => ?_⟩
  obtain ⟨_, w, cycle, rfl⟩ := clockCycle_cases running next
  exact (kept_real s.params).runCycle cycle real

/-! ### Writes -/

/-- From `s` to `t` the block appends its events, with no write among them, or one whose value `OUT` and the write
port then hold. -/
def WritesAtMostOnce (s t : Work) : Prop :=
  ∃ es, t.events = s.events ++ es ∧
    ((writesOf es = [] ∧ t.out = s.out ∧ t.port = s.port) ∨ (writesOf es = [t.out] ∧ t.port = t.out))

theorem pollSample_writesAtMostOnce (p : Params) (raw : Word16) (s : Work) :
    WritesAtMostOnce s (pollSample p raw s) := by
  obtain ⟨acc, wcnt, ds, es, polled, noWrite, _⟩ := pollSample_frame p raw s
  rw [polled]
  exact ⟨es, rfl, .inl ⟨noWrite, rfl, rfl⟩⟩

theorem pollFailed_writesAtMostOnce (s : Work) : WritesAtMostOnce s (pollFailed s) := by
  obtain ⟨es, failed, noWrite⟩ := pollFailed_frame s
  rw [failed]
  exact ⟨es, rfl, .inl ⟨noWrite, rfl, rfl⟩⟩

theorem SequencerMove.writesAtMostOnce {p : Params} {s t : Work} (move : SequencerMove p s t) :
    WritesAtMostOnce s t := by
  cases move with
  | stayed eq => exact ⟨[], by simp [eq], .inl ⟨rfl, by rw [eq], by rw [eq]⟩⟩
  | dropped why eq => exact ⟨[.dropped why], by simp [eq], .inl ⟨rfl, by simp [eq], by simp [eq]⟩⟩
  | disarmed _ _ eq => exact ⟨[], by simp [eq], .inl ⟨rfl, by simp [eq], by simp [eq]⟩⟩
  | started wf b rest _ _ eq =>
    rw [startDrain_cons] at eq
    subst eq
    exact ⟨_, rfl, .inr ⟨writesOf_writeEvents _ wf, rfl⟩⟩
  | pressed wf b rest _ _ eq =>
    rw [assertFront_eq] at eq
    subst eq
    exact ⟨_, rfl, .inr ⟨writesOf_writeEvents _ wf, rfl⟩⟩
  | released wf b rest _ _ eq =>
    subst eq
    exact ⟨_, rfl, .inr ⟨writesOf_writeEvents _ wf, rfl⟩⟩

/-- Settles O41: every operation writes by a shared step of the drain, once, or not at all. -/
theorem atMostOneWritePerInstruction : Obligations.AtMostOneWritePerInstruction := by
  unfold Obligations.AtMostOneWritePerInstruction
  intro i s t next
  obtain ⟨w, rfl, did⟩ := exec_did next
  obtain ⟨raw, rfl⟩ | rfl | move := did.cases
  · exact pollSample_writesAtMostOnce s.params raw s.toWork
  · exact pollFailed_writesAtMostOnce s.toWork
  · exact move.writesAtMostOnce

/-! ### The mode -/

@[simp] theorem pollSample_proc (p : Params) (raw : Word16) (s : Work) : (pollSample p raw s).proc = s.proc := by
  obtain ⟨_, _, _, _, polled, _⟩ := pollSample_frame p raw s
  rw [polled]

@[simp] theorem pollFailed_proc (s : Work) : (pollFailed s).proc = s.proc := by
  obtain ⟨_, failed, _⟩ := pollFailed_frame s
  rw [failed]

/-- `CTRL` changes `PROC` only to start a drain. -/
theorem control_proc (p : Params) (wf : Bool) (req : CtrlReq) (s : Work) :
    (control p wf req s).proc = s.proc ∨
    ((control p wf req s).proc = true ∧ noState s.ds = false ∧ requestSymbols p s.ds req ≠ []) := by
  obtain ⟨_, busy⟩ | ⟨_, _, unknown⟩ | ⟨_, known, started⟩ := control_cases p wf req s
  · exact .inl (by rw [busy, emit_proc])
  · exact .inl (by rw [unknown, emit_proc])
  · rw [started]
    obtain ⟨_, nothing⟩ | ⟨b, rest, list, drain⟩ := startDrain_cases p (requestSymbols p s.ds req) wf s
    · exact .inl (by rw [nothing])
    · exact .inr ⟨by rw [drain, assertFront_proc], known, by simp [list]⟩

/-- `TADV` leaves `PROC` true. -/
theorem advanceTimer_proc (p : Params) (wf : Bool) (s : Work) : (advanceTimer p wf s).proc = true := by
  obtain ⟨busy, dropped⟩ | ⟨_, started⟩ := advanceTimer_cases p wf s
  · rw [dropped, emit_proc, busy]
  · rw [started, startDrain_cons]

/-- The release clears `PROC` when it pops the last symbol, and else leaves it. -/
theorem releaseStep_proc {p : Params} {wf : Bool} {s t : Work} (next : releaseStep p wf (disarm s) = .next t) :
    t.proc = s.proc ∨ (t.proc = false ∧ ∃ b, s.q = [b]) := by
  obtain ⟨b, front, rfl⟩ | ⟨_, _, _, _, rfl⟩ := releaseStep_cases next
  · exact .inr ⟨rfl, b, front⟩
  · exact .inl rfl

theorem delayExpiry_proc {p : Params} {wf : Bool} {s t : Work} (next : delayExpiry p wf s = .next t) :
    t.proc = s.proc ∨ (t.proc = false ∧ s.phase = .press ∧ ∃ b, s.q = [b]) := by
  obtain ⟨_, ⟨press, released⟩ | ⟨_, asserted⟩ | ⟨_, rfl⟩⟩ := delayExpiry_cases next
  · exact (releaseStep_proc released).imp_right fun ⟨low, front⟩ => ⟨low, press, front⟩
  · obtain ⟨_, _, _, rfl⟩ := assertStep_cases asserted
    exact .inl (by rw [assertFront_proc, disarm_proc])
  · exact .inl rfl

/-- What an answered instruction has done to `PROC`. -/
theorem Did.proc {i : Instr} {p : Params} {s t : Work} (did : Did i p s t) :
    t.proc = s.proc ∨
    (t.proc = true ∧ ∃ wf, i = .tadv wf ∨
      ∃ req, i = .ctrl wf req ∧ noState s.ds = false ∧ requestSymbols p s.ds req ≠ []) ∨
    (t.proc = false ∧ ∃ wf b, (i = .texp wf ∨ i = .release wf) ∧ s.phase = .press ∧ s.q = [b]) := by
  cases did with
  | poll raw _ eq => exact .inl (by rw [eq, pollSample_proc])
  | pollFail _ eq => exact .inl (by rw [eq, pollFailed_proc])
  | ctrl wf req kind eq =>
    obtain same | ⟨high, known, list⟩ := control_proc p wf req s
    · exact .inl (by rw [eq, same])
    · exact .inr (.inl ⟨by rw [eq, high], wf, .inr ⟨req, kind, known, list⟩⟩)
  | tadv wf kind eq => exact .inr (.inl ⟨by rw [eq, advanceTimer_proc], wf, .inl kind⟩)
  | texp wf kind eq =>
    obtain same | ⟨low, press, b, front⟩ := delayExpiry_proc eq
    · exact .inl same
    · exact .inr (.inr ⟨low, wf, b, .inl kind, press, front⟩)
  | press line wf _ eq =>
    obtain ⟨_, _, _, _, _, rfl⟩ := pressLine_cases eq
    exact .inl (by rw [assertFront_proc])
  | release wf kind eq =>
    obtain ⟨press, released⟩ := releaseLine_cases eq
    obtain same | ⟨low, b, front⟩ := releaseStep_proc released
    · exact .inl same
    · exact .inr (.inr ⟨low, wf, b, .inr kind, press, front⟩)

/-- Settles O47: `PROC` changes with the start of a drain and with the release of its last symbol alone. -/
theorem modeChangesOnlyHere : Obligations.ModeChangesOnlyHere := by
  unfold Obligations.ModeChangesOnlyHere
  intro i s t next
  obtain ⟨w, rfl, did⟩ := exec_did next
  refine ⟨fun low (high : w.proc = true) => ?raised, fun high (low : w.proc = false) => ?cleared⟩
  case raised =>
    obtain same | ⟨_, how⟩ | ⟨low', _⟩ := did.proc
    · simp [low, high] at same
    · exact how
    · simp [high] at low'
  case cleared =>
    obtain same | ⟨high', _⟩ | ⟨_, how⟩ := did.proc
    · simp [low, high] at same
    · simp [low] at high'
    · exact how

end Sys2Proof.Machine
end

section
/-! SUPPORT. The invariant of 10 R28: it holds after reset, every operation keeps it, and so does every step; and
what follows from it. -/

namespace Sys2Proof.Machine

/-! ### The phases under the invariant -/

theorem Inv.phase_of_not_proc {s : State} (inv : Inv s) (sampling : s.proc = false) : s.phase = .idle := by
  have busy : s.proc = decide (s.phase ≠ .idle) := inv.procIsBusy
  simpa [sampling] using busy

theorem Inv.proc_of_phase {s : State} (inv : Inv s) (busy : s.phase ≠ .idle) : s.proc = true := by
  rw [inv.procIsBusy, decide_eq_true busy]

/-- With a symbol queued the block is in PRESS or GAP. -/
theorem Inv.phase_ne_idle_of_cons {s : State} (inv : Inv s) {b : Button} {rest : List Button}
    (front : s.q = b :: rest) : s.phase ≠ .idle := by
  intro idle
  obtain ⟨empty, _⟩ := inv.idleIsQuiet idle
  simp [front] at empty

theorem Inv.not_armed_of_idle {s : State} (inv : Inv s) (idle : s.phase = .idle) : isArmed s.tmr = false := by
  obtain ⟨_, tmr, _⟩ := inv.idleIsQuiet idle
  rw [tmr, isArmed]

theorem Inv.port_is_word {s : State} (inv : Inv s) :
    s.port = 0xFFFF ∨ ∃ b, s.port = pressWord (btnBitOf s.params b) := by
  obtain ⟨_, word⟩ := inv.portHoldsAWord
  exact word

/-! ### What keeps the invariant -/

/-- The invariant says nothing of the events or the host's moves. -/
theorem Inv.with_events {s : State} (inv : Inv s) (es : List Event) (moves : List HostMove) :
    Inv { s with events := es, inbox := moves } :=
  ⟨inv.legal, inv.procIsBusy, inv.idleIsQuiet, inv.pressHoldsLine, inv.gapIsReleased, inv.queueBounded,
    inv.countsBounded, inv.sentinelsTogether, inv.portHoldsAWord⟩

/-- The Decoder's fields enter two items only. -/
theorem Inv.with_window {s : State} (inv : Inv s) {acc : Grid Count} {wcnt : Count} {ds : Decoded} (es : List Event)
    (counts : wcnt ≤ 31 ∧ ∀ r c, gridGet acc r c ≤ wcnt) (sentinels : allUnknown ds ∨ ds.real) :
    Inv { s with acc := acc, wcnt := wcnt, ds := ds, events := es } :=
  ⟨inv.legal, inv.procIsBusy, inv.idleIsQuiet, inv.pressHoldsLine, inv.gapIsReleased, inv.queueBounded,
    counts, sentinels, inv.portHoldsAWord⟩

theorem Inv.pressing {s : State} (inv : Inv s) {b : Button} {rest : List Button}
    (short : (b :: rest).length ≤ Config.qDepth) (left : Nat) (es : List Event) :
    Inv (s.pressing b rest left es) where
  legal := inv.legal
  procIsBusy := rfl
  idleIsQuiet := nofun
  pressHoldsLine := fun _ => ⟨rfl, b, rest, rfl, rfl⟩
  gapIsReleased := nofun
  queueBounded := short
  countsBounded := inv.countsBounded
  sentinelsTogether := inv.sentinelsTogether
  portHoldsAWord := ⟨fun _ => rfl, .inr ⟨b, rfl⟩⟩

theorem Inv.pausing {s : State} (inv : Inv s) {b : Button} {rest : List Button}
    (short : (b :: rest).length ≤ Config.qDepth) (left : Nat) (es : List Event) :
    Inv (s.pausing b rest left es) where
  legal := inv.legal
  procIsBusy := rfl
  idleIsQuiet := nofun
  pressHoldsLine := nofun
  gapIsReleased := fun _ => ⟨List.cons_ne_nil b rest, rfl, rfl⟩
  queueBounded := short
  countsBounded := inv.countsBounded
  sentinelsTogether := inv.sentinelsTogether
  portHoldsAWord := ⟨fun _ => rfl, .inl rfl⟩

theorem Inv.drained {s : State} (inv : Inv s) (es : List Event) : Inv (s.drained es) where
  legal := inv.legal
  procIsBusy := rfl
  idleIsQuiet := fun _ => ⟨rfl, rfl, rfl⟩
  pressHoldsLine := nofun
  gapIsReleased := nofun
  queueBounded := Nat.zero_le _
  countsBounded := inv.countsBounded
  sentinelsTogether := inv.sentinelsTogether
  portHoldsAWord := ⟨fun _ => rfl, .inl rfl⟩

@[simp] theorem isArmed_tickDelay (t : Tmr) : isArmed (tickDelay t) = isArmed t := by cases t <;> rfl

/-- A delay that counts stays armed. -/
theorem Inv.ticked {s : State} (inv : Inv s) : Inv { s with tmr := tickDelay s.tmr } where
  legal := inv.legal
  procIsBusy := inv.procIsBusy
  idleIsQuiet := fun idle => by
    obtain ⟨empty, tmr, out⟩ := inv.idleIsQuiet idle
    exact ⟨empty, congrArg tickDelay tmr, out⟩
  pressHoldsLine := fun press => by
    obtain ⟨armed, line⟩ := inv.pressHoldsLine press
    exact ⟨(isArmed_tickDelay s.tmr).trans armed, line⟩
  gapIsReleased := fun gap => by
    obtain ⟨nonempty, armed, out⟩ := inv.gapIsReleased gap
    exact ⟨nonempty, (isArmed_tickDelay s.tmr).trans armed, out⟩
  queueBounded := inv.queueBounded
  countsBounded := inv.countsBounded
  sentinelsTogether := inv.sentinelsTogether
  portHoldsAWord := inv.portHoldsAWord

theorem counts_bounded_zero :
    (0 : Count) ≤ 31 ∧ ∀ r c, gridGet (gridOf fun _ _ => (0 : Count)) r c ≤ 0 :=
  ⟨by decide, fun r c => by rw [gridGet_gridOf]; exact BitVec.le_refl _⟩

/-- Counters and `WCNT` advance together. -/
theorem counts_bounded_accum {p : Params} {raw : Word16} {acc : Grid Count} {n : Count} (bound : n ≤ 31)
    (counts : ∀ r c, gridGet acc r c ≤ n) (r : Row) (c : Col) : gridGet (accum p raw acc) r c ≤ n + 1 := by
  have cell := counts r c
  rw [gridGet_accum]
  split_ifs <;> bv_omega

theorem Inv.polled {s : State} (inv : Inv s) (raw : Word16) :
    Inv { s with toWork := pollSample s.params raw s.toWork } := by
  obtain ⟨bound, counts⟩ := inv.countsBounded
  obtain ⟨_, same⟩ | ⟨_, notFull, counted⟩ | ⟨_, _, finalized⟩ := pollSample_cases s.params raw s.toWork
  · rw [same]
    exact inv
  · rw [counted]
    refine inv.with_window s.events ⟨?_, counts_bounded_accum bound counts⟩ inv.sentinelsTogether
    rw [ne_eq, wcnt_succ_eq_window] at notFull
    bv_omega
  · rw [finalized, finalize_eq]
    exact inv.with_window _ counts_bounded_zero (.inr (decodeWindow_real ..))

theorem Inv.failed {s : State} (inv : Inv s) : Inv { s with toWork := pollFailed s.toWork } := by
  obtain ⟨es, failed, _⟩ := pollFailed_frame s.toWork
  rw [failed]
  exact inv.with_events _ _

theorem Inv.moved {s : State} (inv : Inv s) {t : Work} (move : SequencerMove s.params s.toWork t) :
    Inv { s with toWork := t } := by
  cases move with
  | stayed eq => exact eq ▸ inv
  | dropped why eq =>
    rw [eq]
    exact inv.with_events (s.events ++ [.dropped why]) s.inbox
  | disarmed armed idle _ => simp [inv.not_armed_of_idle idle] at armed
  | started wf b rest _ short eq =>
    rw [eq, startDrain_cons]
    exact inv.pressing short _ _
  | pressed wf b rest front _ eq =>
    have busy := inv.proc_of_phase (inv.phase_ne_idle_of_cons front)
    have bounded : s.q.length ≤ Config.qDepth := inv.queueBounded
    rw [front] at bounded
    have station : { s with toWork := t } =
        s.pressing b rest (pressCycles s.params) (writeEvents (pressWord (btnBitOf s.params b)) wf) := by
      rw [eq, assertFront_eq, State.pressing, ← front, ← busy]
    exact station ▸ inv.pressing bounded _ _
  | released wf b rest front press eq =>
    have busy := inv.proc_of_phase (inv.phase_ne_idle_of_cons front)
    cases rest with
    | nil => exact eq ▸ inv.drained (writeEvents 0xFFFF wf)
    | cons c others =>
      have bounded : s.q.length ≤ Config.qDepth := inv.queueBounded
      rw [front] at bounded
      have station : { s with toWork := t } = s.pausing c others (gapCycles s.params) (writeEvents 0xFFFF wf) := by
        rw [eq, State.pausing, ← busy]
        rfl
      exact station ▸ inv.pausing (Nat.le_of_succ_le bounded) _ _

/-- Each operation of the block keeps the invariant, under any configuration. -/
theorem kept_inv (p : Params) (moves : List HostMove) :
    Kept p fun w => Inv { toWork := w, params := p, inbox := moves } where
  polled := fun raw inv => inv.polled raw
  failed := fun inv => inv.failed
  moved := fun move inv => inv.moved move
  ticked := fun inv => inv.ticked

theorem exec_keeps_inv {i : Instr} {s t : State} (inv : Inv s) (next : exec i s = .next t) : Inv t := by
  have kept := (kept_inv s.params s.inbox).exec next inv
  obtain ⟨w, rfl, _⟩ := exec_did next
  exact kept

/-! ### Reset -/

/-- The reset state has the invariant, with any of the block's words left on the write port (70 R129). -/
theorem inv_resetWith {p : Params} (legal : p.Legal) (moves : List HostMove) {port : Word16}
    (word : port = 0xFFFF ∨ ∃ b, port = pressWord (btnBitOf p b)) :
    Inv { State.resetWith p moves with port := port } where
  legal := legal
  procIsBusy := rfl
  idleIsQuiet := fun _ => ⟨rfl, rfl, rfl⟩
  pressHoldsLine := nofun
  gapIsReleased := nofun
  queueBounded := Nat.zero_le _
  countsBounded := counts_bounded_zero
  sentinelsTogether := by
    obtain ⟨_, _, _, _, real⟩ := legal
    match snapshot : p.restore with
    | none => exact .inl (resetWith_ds_of_no_snapshot snapshot moves)
    | some d =>
      refine .inr ?_
      rw [show ({ State.resetWith p moves with port := port } : State).ds = p.restore.getD unknownDs from rfl, snapshot]
      exact real d snapshot
  portHoldsAWord := ⟨fun busy => absurd rfl busy, word⟩

/-- Settles O44: after a start nothing has been written, and the port shows the release word. -/
theorem resetHasInvariant : Obligations.ResetHasInvariant := by
  unfold Obligations.ResetHasInvariant
  exact ⟨witness_reset_invariant, fun p moves legal => inv_resetWith legal moves (.inl rfl)⟩

theorem resetBlock_keeps_inv {s : State} (inv : Inv s) : Inv (resetBlock s) :=
  inv_resetWith inv.legal s.inbox inv.port_is_word

theorem clockCycle_keeps_inv {pins : Pins} {s t : State} (inv : Inv s) (next : clockCycle pins s = .next t) :
    Inv t := by
  cases reset : pins.rst with
  | true =>
    rw [clockCycle_of_rst s reset] at next
    cases next
    exact inv_resetWith (p := { s.params with onOffIndependent := pins.cfgOnOff }) inv.legal s.inbox
      inv.port_is_word
  | false =>
    obtain ⟨_, w, cycle, rfl⟩ := clockCycle_cases reset next
    exact (kept_inv s.params s.inbox).runCycle cycle inv

/-- Settles O45: the step is an instruction, a clock cycle or a reset at the state with the move taken, or nothing,
and each of them keeps the invariant. -/
theorem stepKeepsInvariant : Obligations.StepKeepsInvariant := by
  unfold Obligations.StepKeepsInvariant
  intro s t inv next
  obtain ⟨rest, idle | ⟨i, run⟩ | ⟨pins, cycle⟩ | reset | ⟨e, refused⟩⟩ := step_eq s
  all_goals have begun : Inv (beginStep rest s) := inv.with_events [] rest
  · cases idle.symm.trans next
    exact begun
  · exact exec_keeps_inv begun (run.symm.trans next)
  · exact clockCycle_keeps_inv begun (cycle.symm.trans next)
  · cases reset.symm.trans next
    exact resetBlock_keeps_inv begun
  · cases refused.symm.trans next

/-! ### Nothing stops -/

theorem Inv.release_answers {s : State} (inv : Inv s) (wf : Bool) (press : s.phase = .press) :
    ∃ t, releaseStep s.params wf (disarm s.toWork) = .next t := by
  obtain ⟨_, b, rest, front, _⟩ := inv.pressHoldsLine press
  exact ⟨_, releaseStep_disarm s.params wf front⟩

/-- Under the invariant an armed delay expires with an answer, whatever the phase. -/
theorem Inv.delayExpiry_answers {s : State} (inv : Inv s) (wf : Bool) (armed : isArmed s.tmr = true) :
    ∃ t, delayExpiry s.params wf s.toWork = .next t := by
  match phase : s.phase with
  | .idle => exact ⟨_, delayExpiry_of_idle s.params wf armed phase⟩
  | .press =>
    rw [delayExpiry_of_press s.params wf armed phase]
    exact inv.release_answers wf phase
  | .gap =>
    rw [delayExpiry_of_gap s.params wf armed phase]
    obtain ⟨nonempty, _⟩ := inv.gapIsReleased phase
    obtain ⟨b, rest, front⟩ := List.exists_cons_of_ne_nil nonempty
    exact ⟨_, assertStep_cons s.params wf (s := disarm s.toWork) front⟩

theorem Inv.delayExpiry_ne_fault {s : State} (inv : Inv s) (wf : Bool) (f : Fault) :
    delayExpiry s.params wf s.toWork ≠ .fault f := by
  intro fault
  cases armed : isArmed s.tmr with
  | true =>
    obtain ⟨t, next⟩ := inv.delayExpiry_answers wf armed
    cases next.symm.trans fault
  | false =>
    rw [delayExpiry, if_neg (by simp [armed])] at fault
    cases fault

theorem pressLine_ne_fault (p : Params) (line : Fin 8) (wf : Bool) (s : Work) (f : Fault) :
    pressLine p line wf s ≠ .fault f := by
  unfold pressLine
  split
  · nofun
  · split_ifs <;> nofun

theorem Inv.releaseLine_ne_fault {s : State} (inv : Inv s) (wf : Bool) (f : Fault) :
    releaseLine s.params wf s.toWork ≠ .fault f := by
  intro fault
  unfold releaseLine at fault
  split_ifs at fault with press
  obtain ⟨t, next⟩ := inv.release_answers wf press
  cases next.symm.trans fault

theorem exec_ne_fault {s : State} (inv : Inv s) (i : Instr) (f : Fault) : exec i s ≠ .fault f := by
  intro fault
  cases i with
  | texp wf =>
    simp only [exec] at fault
    exact inv.delayExpiry_ne_fault wf f (onBlock_fault.mp fault)
  | release wf =>
    simp only [exec] at fault
    exact inv.releaseLine_ne_fault wf f (onBlock_fault.mp fault)
  | pressB0 wf | pressB1 wf | pressB2 wf | pressB3 wf | pressB4 wf | pressB5 wf | pressB6 wf | pressB7 wf =>
    simp only [exec] at fault
    exact pressLine_ne_fault s.params _ wf s.toWork f (onBlock_fault.mp fault)
  | pollOk | pollFail | ctrl | tadv | litR0C0 | litR0C1 | litR0C2 | litR1C0 | litR1C1 | litR1C2
  | litR2C0 | litR2C1 | litR2C2 | litR3C0 | litR3C1 | litR3C2 => cases fault

theorem clockCycle_ne_fault {s : State} (inv : Inv s) (pins : Pins) (f : Fault) : clockCycle pins s ≠ .fault f := by
  intro fault
  unfold clockCycle at fault
  split_ifs at fault
  have cycle := onBlock_fault.mp fault
  obtain ⟨_, expired⟩ | ⟨_, _, ticked⟩ | ⟨_, _, idle⟩ := runCycle_cases s.params pins s.toWork
  · have requests := (kept_inv s.params s.inbox).requestsOf pins inv
    exact requests.delayExpiry_ne_fault pins.wrFail f (expired.symm.trans cycle)
  · cases ticked.symm.trans cycle
  · cases idle.symm.trans cycle

/-- Settles O46: the two faults are an empty queue in GAP or PRESS, which the invariant excludes. -/
theorem nothingFaults : Obligations.NothingFaults := by
  unfold Obligations.NothingFaults
  refine ⟨fun s inv f fault => ?fault, fun s raw => ⟨_, exec_pollOk raw s⟩, fun s => ⟨_, exec_pollFail s⟩,
    fun s wf req => ⟨_, exec_ctrl wf req s⟩, fun s wf => ⟨_, exec_tadv wf s⟩, fun s wf inv armed => ?texp⟩
  case fault =>
    obtain ⟨rest, idle | ⟨i, run⟩ | ⟨pins, cycle⟩ | reset | ⟨e, refused⟩⟩ := step_eq s
    · cases idle.symm.trans fault
    · exact exec_ne_fault (inv.with_events [] rest) i f (run.symm.trans fault)
    · exact clockCycle_ne_fault (inv.with_events [] rest) pins f (cycle.symm.trans fault)
    · cases reset.symm.trans fault
    · cases refused.symm.trans fault
  case texp =>
    obtain ⟨t, next⟩ := inv.delayExpiry_answers wf armed
    exact ⟨_, (exec_texp wf s).trans (onBlock_next next)⟩

/-! ### Phases and modes -/

/-- Settles O48: each move of the Sequencer is one of these four, or leaves the phase. -/
theorem phaseMoves : Obligations.PhaseMoves := by
  unfold Obligations.PhaseMoves
  intro i s t inv next
  obtain ⟨w, rfl, did⟩ := exec_did next
  obtain ⟨raw, rfl⟩ | rfl | move := did.cases
  · obtain ⟨_, _, _, _, polled, _⟩ := pollSample_frame s.params raw s.toWork
    exact .inl (by rw [polled])
  · obtain ⟨_, failed, _⟩ := pollFailed_frame s.toWork
    exact .inl (by rw [failed])
  · cases move with
    | stayed eq | dropped _ eq | disarmed _ _ eq => exact .inl (by simp [eq])
    | started _ b rest sampling _ eq =>
      exact .inr (.inl ⟨inv.phase_of_not_proc sampling, by simp [eq, startDrain_cons]⟩)
    | pressed _ b rest front notPress eq =>
      have notIdle := inv.phase_ne_idle_of_cons front
      have gap : s.phase = .gap := by
        cases phase : s.phase with
        | idle => exact absurd phase notIdle
        | press => exact absurd phase notPress
        | gap => rfl
      exact .inr (.inr (.inr ⟨gap, by simp [eq]⟩))
    | released _ b rest _ press eq =>
      refine .inr (.inr (.inl ⟨press, ?_⟩))
      cases rest with
      | nil => exact .inr (by simp [eq, releasedTo])
      | cons c others => exact .inl (by simp [eq, releasedTo])

/-- Settles O49: a poll is ignored while `PROC` is true, and the invariant of the next state says the rest. -/
theorem statePerMode : Obligations.StatePerMode := by
  unfold Obligations.StatePerMode
  intro i s t inv next
  refine ⟨fun busy => ?frozen, fun sampling => ?idle⟩
  case frozen =>
    obtain ⟨w, rfl, did⟩ := exec_did next
    obtain ⟨raw, rfl⟩ | rfl | move := did.cases
    · rw [pollSample_of_proc s.params raw busy]
      exact ⟨rfl, rfl, rfl⟩
    · rw [pollFailed_of_proc busy]
      exact ⟨rfl, rfl, rfl⟩
    · exact move.frame
  case idle =>
    have kept := exec_keeps_inv inv next
    have idle := kept.phase_of_not_proc sampling
    obtain ⟨empty, tmr, out⟩ := kept.idleIsQuiet idle
    exact ⟨empty, idle, tmr, out⟩

/-! ### The lines -/

/-- `OUT` too shows the release word or a button's press word. -/
theorem Inv.out_is_word {s : State} (inv : Inv s) :
    s.out = 0xFFFF ∨ ∃ b, s.out = pressWord (btnBitOf s.params b) := by
  match phase : s.phase with
  | .idle =>
    obtain ⟨_, _, out⟩ := inv.idleIsQuiet phase
    exact .inl out
  | .press =>
    obtain ⟨_, b, _, _, out⟩ := inv.pressHoldsLine phase
    exact .inr ⟨b, out⟩
  | .gap =>
    obtain ⟨_, _, out⟩ := inv.gapIsReleased phase
    exact .inl out

theorem getLsbD_pressWord (line : Fin 8) {j : Nat} (pin : j < 16) :
    (pressWord line).getLsbD j = decide (j ≠ line.val) := by
  obtain ⟨_, _, _, bits, _⟩ := outputWordsAreOneHotLow
  exact bits line j pin

theorem getLsbD_releaseWord {j : Nat} (pin : j < 16) : (0xFFFF : Word16).getLsbD j = true := by
  obtain ⟨_, _, eq, _, bits, _⟩ := outputWordsAreOneHotLow
  exact eq ▸ bits j pin

/-- Settles O50: the two words have no line low, or the line of one button. -/
theorem neverTwoLinesLow : Obligations.NeverTwoLinesLow := by
  unfold Obligations.NeverTwoLinesLow
  intro s inv v shown j k pinJ pinK lowJ lowK
  have word : v = 0xFFFF ∨ ∃ b, v = pressWord (btnBitOf s.params b) := by
    obtain rfl | rfl := shown
    · exact inv.out_is_word
    · exact inv.port_is_word
  obtain rfl | ⟨b, rfl⟩ := word
  · rw [getLsbD_releaseWord pinJ] at lowJ
    cases lowJ
  · rw [getLsbD_pressWord _ pinJ, decide_eq_false_iff_not, not_not] at lowJ
    rw [getLsbD_pressWord _ pinK, decide_eq_false_iff_not, not_not] at lowK
    exact ⟨lowJ.trans lowK.symm, lowJ ▸ (btnBitOf s.params b).isLt, b, lowJ.symm⟩

end Sys2Proof.Machine
end

section
/-! SUPPORT. The clock cycle (70 R147, R148): its operations in order, the delay that counts, and a whole drain in
cycles. -/

namespace Sys2Proof.Machine

/-! ### A cycle and its delay -/

/-- In the cycle of an expiry `TEXP` comes last, on the state the requests and the poll leave. -/
theorem clockCycle_of_due {pins : Pins} {s : State} (running : RunningPins pins s) (due : delayDue s.tmr = true) :
    clockCycle pins s = exec (.texp pins.wrFail) { s with toWork := requestsOf s.params pins s.toWork } := by
  rw [clockCycle_running running, exec_texp]
  simp only [onBlock, runCycle, due, if_true]

/-- In any other cycle a delay armed before it counts. -/
theorem clockCycle_of_not_due {pins : Pins} {s : State} (running : RunningPins pins s)
    (notDue : delayDue s.tmr = false) :
    clockCycle pins s =
      let t := requestsOf s.params pins s.toWork
      .next { s with toWork := { t with tmr := if isArmed s.tmr then tickDelay t.tmr else t.tmr } } := by
  rw [clockCycle_running running]
  obtain ⟨due, _⟩ | ⟨_, armed, ticked⟩ | ⟨_, idle, same⟩ := runCycle_cases s.params pins s.toWork
  · simp [notDue] at due
  · simp only [onBlock, ticked, armed, if_true]
  · simp only [onBlock, same, idle, Bool.false_eq_true, if_false]

theorem clockCycle_of_idle {pins : Pins} {s : State} (running : RunningPins pins s) (idle : s.tmr = .idle) :
    clockCycle pins s = .next { s with toWork := requestsOf s.params pins s.toWork } := by
  rw [clockCycle_of_not_due running (by rw [idle, delayDue]), idle]
  rfl

/-! ### The composition -/

theorem execAll_singleton (i : Instr) (s : State) : execAll [i] s = exec i s := by
  unfold execAll
  cases exec i s <;> rfl

theorem execAll_ctrlStage (pins : Pins) (s : State) :
    execAll (if pins.ctrlValid then [.ctrl pins.wrFail (decodeCtrlw pins.ctrlReq)] else []) s =
      .next { s with toWork := ctrlStage s.params pins s.toWork } := by
  unfold ctrlStage
  split_ifs <;> rfl

theorem execAll_tadvStage (pins : Pins) (s : State) :
    execAll (if pins.tadvValid then [.tadv pins.wrFail] else []) s =
      .next { s with toWork := tadvStage s.params pins s.toWork } := by
  unfold tadvStage
  split_ifs <;> rfl

theorem execAll_pollStage (pins : Pins) (s : State) :
    execAll (if pins.pollValid then [if pins.pollOk then .pollOk pins.pollData else .pollFail] else []) s =
      .next { s with toWork := pollStage s.params pins s.toWork } := by
  unfold pollStage
  split_ifs <;> rfl

/-- The requests and the poll of a cycle are its instructions but `TEXP`, one after another. -/
theorem execAll_requests (pins : Pins) (s : State) :
    execAll (cycleInstrs pins false) s = .next { s with toWork := requestsOf s.params pins s.toWork } := by
  have ctrl := execAll_ctrlStage pins s
  have tadv := (execAll_append_of_next _ ctrl).trans (execAll_tadvStage pins _)
  have poll := (execAll_append_of_next _ tadv).trans (execAll_pollStage pins _)
  rw [cycleInstrs, if_neg Bool.false_ne_true, List.append_nil, poll]
  rfl

theorem cycleInstrs_due (pins : Pins) : cycleInstrs pins true = cycleInstrs pins false ++ [.texp pins.wrFail] := by
  simp [cycleInstrs]

/-- Settles O54: the requests one after another, then `TEXP` or the count of the delay. -/
theorem cycleIsSequentialComposition : Obligations.CycleIsSequentialComposition := by
  unfold Obligations.CycleIsSequentialComposition
  refine fun pins s running => ⟨fun due => ?_, fun notDue => ⟨_, execAll_requests pins s, ?_⟩⟩
  · rw [cycleInstrs_due, execAll_append_of_next _ (execAll_requests pins s), execAll_singleton]
    exact clockCycle_of_due running due
  · exact clockCycle_of_not_due running notDue

/-! ### Requests and polls of one cycle -/

/-- What a cycle's requests emit while a drain runs. -/
def dropEvents (pins : Pins) : List Event :=
  (if pins.ctrlValid then [.dropped .busy] else []) ++ if pins.tadvValid then [.dropped .busy] else []

@[simp] theorem writesOf_dropEvents (pins : Pins) : writesOf (dropEvents pins) = [] := by
  unfold dropEvents
  split_ifs <;> rfl

theorem tadvStage_of_proc (p : Params) (pins : Pins) {s : Work} (busy : s.proc = true) :
    tadvStage p pins s = { s with events := s.events ++ if pins.tadvValid then [.dropped .busy] else [] } := by
  unfold tadvStage
  split_ifs
  · rw [advanceTimer_of_proc p pins.wrFail busy]
    rfl
  · rw [List.append_nil]

theorem pollStage_of_proc (p : Params) (pins : Pins) {s : Work} (busy : s.proc = true) : pollStage p pins s = s := by
  unfold pollStage
  split_ifs
  · exact pollSample_of_proc p pins.pollData busy
  · exact pollFailed_of_proc busy
  · rfl

theorem pollStage_tadvStage_of_proc (p : Params) (pins : Pins) {s : Work} (busy : s.proc = true) :
    pollStage p pins (tadvStage p pins s) =
      { s with events := s.events ++ if pins.tadvValid then [.dropped .busy] else [] } := by
  rw [tadvStage_of_proc p pins busy]
  exact pollStage_of_proc p pins busy

/-- The cycle of a `CTRL` that starts a drain drops its `TADV` and ignores its poll. -/
theorem clockCycle_of_drain_start {pins : Pins} {s t : State} (running : RunningPins pins s)
    (present : pins.ctrlValid = true) (idle : s.tmr = .idle)
    (next : exec (.ctrl pins.wrFail (decodeCtrlw pins.ctrlReq)) s = .next t) (busy : t.proc = true) :
    clockCycle pins s = .next { t with events := t.events ++ if pins.tadvValid then [.dropped .busy] else [] } := by
  cases next
  rw [clockCycle_of_idle running idle, requestsOf_eq_stages, ctrlStage, if_pos present,
    pollStage_tadvStage_of_proc s.params pins busy]

/-- Settles O57: each request is judged by the `PROC` the one before it leaves, and the poll by that of both. -/
theorem sameCycleConflicts : Obligations.SameCycleConflicts := by
  unfold Obligations.SameCycleConflicts
  refine fun pins s running => ⟨fun t present _ idle => clockCycle_of_drain_start running present idle,
    fun present sampling idle nothing => ?tadv, fun busy due => ?expiry⟩
  case tadv =>
    have ctrl : ctrlStage s.params pins s.toWork = s.toWork := by
      unfold ctrlStage
      split_ifs with ctrlPresent
      · obtain ⟨known, empty⟩ := nothing ctrlPresent
        rw [control_of_known s.params pins.wrFail _ sampling known, empty, startDrain_nil]
      · rfl
    rw [clockCycle_of_idle running idle, requestsOf_eq_stages, ctrl, tadvStage, if_pos present,
      pollStage_of_proc s.params pins (advanceTimer_proc ..), exec_tadv]
  case expiry => rw [clockCycle_of_due running due, requestsOf_busy s.params pins busy]

/-! ### The delay in cycles -/

theorem clockAll_cons_of_next {p : Pins} {s t : State} (rest : List Pins) (next : clockCycle p s = .next t) :
    clockAll (p :: rest) s = clockAll rest t := by
  simp only [clockAll, next]

theorem clockAll_singleton (p : Pins) (s : State) : clockAll [p] s = clockCycle p s := by
  unfold clockAll
  cases clockCycle p s <;> rfl

theorem clockAll_append_of_next {xs : List Pins} (ys : List Pins) {s t : State} (next : clockAll xs s = .next t) :
    clockAll (xs ++ ys) s = clockAll ys t := by
  induction xs generalizing s with
  | nil => cases next; rfl
  | cons p rest ih =>
    rw [clockAll] at next
    split at next
    · rename_i u first
      rw [List.cons_append, clockAll_cons_of_next _ first]
      exact ih next
    · cases next
    · cases next

/-- While a delay of 2 cycles or more runs, a cycle counts it and drops the requests. -/
theorem clockCycle_waiting {pins : Pins} {s : State} {left : Nat} (running : RunningPins pins s) (busy : s.proc = true)
    (armed : s.tmr = .armed (left + 2)) :
    clockCycle pins s = .next { s with tmr := .armed (left + 1), events := s.events ++ dropEvents pins } := by
  rw [clockCycle_of_not_due running (by rw [armed, delayDue, decide_eq_false (by omega)]),
    requestsOf_busy s.params pins busy]
  simp only [armed]
  rfl

/-- n cycles of a longer delay count it by n; nothing else happens but drops. -/
theorem clockAll_waiting {pins : List Pins} {s : State} {left : Nat} (running : ∀ p ∈ pins, RunningPins p s)
    (busy : s.proc = true) (armed : s.tmr = .armed (pins.length + left + 1)) :
    ∃ es, clockAll pins s = .next { s with tmr := .armed (left + 1), events := s.events ++ es } ∧
      writesOf es = [] := by
  induction pins generalizing s with
  | nil =>
    rw [List.length_nil, Nat.zero_add] at armed
    exact ⟨[], by rw [clockAll, List.append_nil, ← armed], rfl⟩
  | cons p rest ih =>
    have first := clockCycle_waiting (left := rest.length + left) (running p (List.mem_cons_self ..)) busy
      (by rw [armed, List.length_cons]; congr 1; omega)
    obtain ⟨es, waited, noWrite⟩ := ih
      (s := { s with tmr := .armed (rest.length + left + 1), events := s.events ++ dropEvents p })
      (fun p' mem => running p' (List.mem_cons_of_mem p mem)) busy rfl
    refine ⟨dropEvents p ++ es, ?_, by rw [writesOf_append, writesOf_dropEvents, noWrite, List.nil_append]⟩
    rw [clockAll_cons_of_next rest first, waited, ← List.append_assoc]

/-- The last cycle of a delay drops its requests and performs `TEXP`. -/
theorem clockCycle_expiring {pins : Pins} {s : State} (running : RunningPins pins s) (busy : s.proc = true)
    (armed : s.tmr = .armed 1) :
    clockCycle pins s = exec (.texp pins.wrFail) { s with events := s.events ++ dropEvents pins } := by
  rw [clockCycle_of_due running (by rw [armed]; rfl), requestsOf_busy s.params pins busy]
  rfl

/-- Settles O55: the delay counts n times, and in the next cycle it is due. -/
theorem delayTakesExactlyItsCycles : Obligations.DelayTakesExactlyItsCycles := by
  unfold Obligations.DelayTakesExactlyItsCycles
  intro n pins last s busy armed length running lastRunning
  obtain ⟨before, waited, noWrite⟩ := clockAll_waiting (left := 0) running busy (by rw [armed, length])
  exact ⟨_, before, waited, rfl, noWrite, dropEvents last, clockCycle_expiring lastRunning busy rfl,
    writesOf_dropEvents last⟩

/-! ### The number of cycles -/

/-- The product of 70 R147 rounded, before the least delay of 1. -/
def roundedCycles (fClk : Nat) : Nat :=
  if 50 * fClk % 1000 < 500 then 50 * fClk / 1000
  else if 50 * fClk % 1000 = 500 then (if Config.roundTieUp fClk then 50 * fClk / 1000 + 1 else 50 * fClk / 1000)
  else 50 * fClk / 1000 + 1

theorem pressCycles_eq_max (p : Params) : pressCycles p = max 1 (roundedCycles p.fClk) := rfl

/-- The rounding is forced but at exactly one half. -/
theorem roundedCycles_spec (fClk : Nat) :
    (50 * fClk % 1000 < 500 → roundedCycles fClk = 50 * fClk / 1000) ∧
    (500 < 50 * fClk % 1000 → roundedCycles fClk = 50 * fClk / 1000 + 1) ∧
    (roundedCycles fClk = 50 * fClk / 1000 ∨ roundedCycles fClk = 50 * fClk / 1000 + 1) := by
  unfold roundedCycles
  split_ifs <;> omega

theorem gapCycles_eq_pressCycles (p : Params) : gapCycles p = pressCycles p := rfl

/-- 50 ms are k cycles at 20k Hz. -/
theorem pressCycles_of_whole {p : Params} {k : Nat} (least : 0 < k) (whole : p.fClk = 20 * k) : pressCycles p = k := by
  obtain ⟨below, _⟩ := roundedCycles_spec p.fClk
  rw [pressCycles_eq_max]
  omega

/-- Settles O59: the quotient and the remainder of the product by 1000 decide. -/
theorem delayCyclesAtWholeProducts : Obligations.DelayCyclesAtWholeProducts := by
  unfold Obligations.DelayCyclesAtWholeProducts
  intro p
  have cycles := pressCycles_eq_max p
  obtain ⟨below, above, either⟩ := roundedCycles_spec p.fClk
  refine ⟨gapCycles_eq_pressCycles p, by omega, fun n least low high => by omega, fun n tie => by omega,
    fun small => by omega, fun k => pressCycles_of_whole⟩

/-! ### A whole drain in cycles -/

/-- From `start` the drain of `s` takes exactly n cycles, whatever stands on the pins meanwhile: `PROC` is true until
then, and the last of them ends it. -/
def DrainsIn (s : State) (n : Nat) (start : State) : Prop :=
  ∀ pins : List Pins, (∀ p ∈ pins, RunningPins p s) → pins.length = n →
    (∀ m < n, ∃ u, clockAll (pins.take m) start = .next u ∧ u.proc = true) ∧
    ∃ es, clockAll pins start = .next (s.drained es)

theorem drainsIn_zero (s : State) (es : List Event) : DrainsIn s 0 (s.drained es) := by
  intro pins _ none
  rw [List.length_eq_zero_iff] at none
  exact ⟨fun m impossible => absurd impossible (Nat.not_lt_zero m), es, by rw [none, clockAll]⟩

section Delay
variable {start : State} {k : Nat} {pins : List Pins}

/-- Within a delay of k cycles the block stays busy. -/
theorem clockAll_within_delay (running : ∀ p ∈ pins, RunningPins p start) (busy : start.proc = true)
    (armed : start.tmr = .armed k) (within : pins.length < k) :
    ∃ es, clockAll pins start = .next { start with
      tmr := .armed (k - 1 - pins.length + 1), events := start.events ++ es } := by
  obtain ⟨es, waited, _⟩ := clockAll_waiting (left := k - 1 - pins.length) running busy
    (by rw [armed]; congr 1; omega)
  exact ⟨es, waited⟩

/-- The k cycles of a delay are its expiry, once the requests among them are dropped. -/
theorem clockAll_whole_delay (running : ∀ p ∈ pins, RunningPins p start) (busy : start.proc = true)
    (least : 0 < k) (armed : start.tmr = .armed k) (whole : pins.length = k) :
    ∃ wf es, clockAll pins start =
      exec (.texp wf) { start with tmr := .armed 1, events := start.events ++ es } := by
  obtain rfl | ⟨front, last, rfl⟩ := List.eq_nil_or_concat pins
  · exact absurd whole (by rw [List.length_nil]; omega)
  · rw [List.concat_eq_append] at running whole ⊢
    rw [List.length_append, List.length_singleton] at whole
    obtain ⟨es, waited⟩ := clockAll_within_delay (k := k) (pins := front)
      (fun p mem => running p (List.mem_append_left _ mem)) busy armed (by omega)
    rw [show k - 1 - front.length + 1 = 1 by omega] at waited
    have expiring := clockCycle_expiring (pins := last)
      (s := { start with tmr := .armed 1, events := start.events ++ es }) (running last (by simp)) busy rfl
    refine ⟨last.wrFail, es ++ dropEvents last, ?_⟩
    rw [clockAll_append_of_next _ waited, clockAll_singleton, expiring, ← List.append_assoc]

end Delay

/-- A delay of k cycles comes before what its expiry leads to. -/
theorem DrainsIn.delay {s start : State} {k n : Nat} (least : 0 < k) (busy : start.proc = true)
    (armed : start.tmr = .armed k) (params : start.params = s.params)
    (expires : ∀ wf es, ∃ t,
      exec (.texp wf) { start with tmr := .armed 1, events := start.events ++ es } = .next t ∧ DrainsIn s n t) :
    DrainsIn s (k + n) start := by
  intro pins running length
  have running' : ∀ p ∈ pins, RunningPins p start := fun p mem => by
    rw [RunningPins, params]
    exact running p mem
  obtain ⟨wf, es, delayed⟩ := clockAll_whole_delay (pins := pins.take k)
    (fun p mem => running' p (List.mem_of_mem_take mem)) busy least armed (List.length_take_of_le (by omega))
  obtain ⟨t, expired, drains⟩ := expires wf es
  rw [expired] at delayed
  obtain ⟨stays, fs, drained⟩ := drains (pins.drop k) (fun p mem => running p (List.mem_of_mem_drop mem))
    (by rw [List.length_drop]; omega)
  refine ⟨fun m short => ?stays, fs, ?ends⟩
  case stays =>
    obtain within | beyond := Nat.lt_or_ge m k
    · obtain ⟨es, waited⟩ := clockAll_within_delay (pins := pins.take m)
        (fun p mem => running' p (List.mem_of_mem_take mem)) busy armed (by rw [List.length_take]; omega)
      exact ⟨_, waited, busy⟩
    · obtain ⟨u, later, high⟩ := stays (m - k) (by omega)
      refine ⟨u, ?_, high⟩
      rw [show m = k + (m - k) by omega, List.take_add, clockAll_append_of_next _ delayed, later]
  case ends => rw [← List.take_append_drop k pins, clockAll_append_of_next _ delayed, drained]

theorem pressing_waiting (s : State) (b : Button) (rest : List Button) (left left' : Nat) (es fs : List Event) :
    { s.pressing b rest left es with tmr := .armed left', events := (s.pressing b rest left es).events ++ fs } =
      s.pressing b rest left' (es ++ fs) := by
  simp only [State.pressing, List.append_assoc]

theorem pressing_with_events (s : State) (b : Button) (rest : List Button) (left : Nat) (es fs : List Event) :
    { s.pressing b rest left es with events := (s.pressing b rest left es).events ++ fs } =
      s.pressing b rest left (es ++ fs) := by
  simp only [State.pressing, List.append_assoc]

theorem pausing_waiting (s : State) (b : Button) (rest : List Button) (left left' : Nat) (es fs : List Event) :
    { s.pausing b rest left es with tmr := .armed left', events := (s.pausing b rest left es).events ++ fs } =
      s.pausing b rest left' (es ++ fs) := by
  simp only [State.pausing, List.append_assoc]

/-- The drain from the press of the front: k cycles to its release, then 2k for each symbol behind it. -/
theorem drainsIn_pressing {s : State} {k : Nat} (least : 0 < k) (press : pressCycles s.params = k) (b : Button)
    (rest : List Button) (es : List Event) : DrainsIn s ((2 * rest.length + 1) * k) (s.pressing b rest k es) := by
  have gap : gapCycles s.params = k := (gapCycles_eq_pressCycles s.params).trans press
  induction rest generalizing b es with
  | nil =>
    rw [List.length_nil, Nat.mul_zero, Nat.zero_add, Nat.one_mul]
    refine DrainsIn.delay (n := 0) least rfl rfl rfl fun wf fs =>
      ⟨_, ?_, drainsIn_zero s (es ++ fs ++ writeEvents 0xFFFF wf)⟩
    rw [pressing_waiting, exec_texp_pressing_last]
  | cons c others ih =>
    have cycles : (2 * (c :: others).length + 1) * k = k + (k + (2 * others.length + 1) * k) := by
      rw [List.length_cons]
      ring
    rw [cycles]
    refine DrainsIn.delay least rfl rfl rfl fun wf fs =>
      ⟨s.pausing c others k (es ++ fs ++ writeEvents 0xFFFF wf), ?released, ?paused⟩
    case released => rw [pressing_waiting, exec_texp_pressing_more, gap]
    case paused =>
      refine DrainsIn.delay least rfl rfl rfl fun wf' gs => ⟨_, ?_, ih c (es ++ fs ++ writeEvents 0xFFFF wf ++ gs ++
        writeEvents (pressWord (btnBitOf s.params c)) wf')⟩
      rw [pausing_waiting, exec_texp_pausing, press]

/-- Settles O56: the cycle of the request presses the first symbol, and from there the drain takes its delays. -/
theorem drainTakesItsTime : Obligations.DrainTakesItsTime := by
  unfold Obligations.DrainTakesItsTime
  intro k s first pins least whole sampling idle known firstRunning present running n nonempty length
  have press := pressCycles_of_whole least whole
  obtain ⟨b, rest, list⟩ := List.exists_cons_of_length_pos nonempty
  have symbols : 2 * n - 1 = 2 * rest.length + 1 := by
    rw [show n = (b :: rest).length from congrArg List.length list, List.length_cons]
    omega
  rw [symbols] at length ⊢
  have started := exec_ctrl_of_cons (wf := first.wrFail) sampling known list
  have firstCycle := clockCycle_of_drain_start firstRunning present idle started rfl
  rw [press, pressing_with_events] at firstCycle
  obtain ⟨stays, es, drained⟩ := drainsIn_pressing least press b rest _ pins running length
  refine ⟨fun m short => ?stays, s.drained es, ?ends, rfl, rfl, rfl, rfl, rfl, rfl⟩
  case stays =>
    obtain ⟨u, waited, high⟩ := stays m short
    exact ⟨u, (clockAll_cons_of_next _ firstCycle).trans waited, high⟩
  case ends => exact (clockAll_cons_of_next _ firstCycle).trans drained

end Sys2Proof.Machine
end

section
/-! SUPPORT. The output pins of a cycle (10 R29, 70 R147): the strobes of its events, the write port and `OUT` as the
writes leave them, and the reason its drops agree on (70 R148). -/

namespace Sys2Proof.Machine

/-! ### The strobes -/

theorem strobe_iff (f : Event → Bool) (s : State) : strobe f s = true ↔ ∃ e ∈ s.events, f e = true :=
  List.any_eq_true

/-- A strobe that sees the events of one form is high iff there is one among the events. -/
theorem strobe_iff_exists {α : Type} {f : Event → Bool} (form : α → Event)
    (sees : ∀ e, f e = true ↔ ∃ a, e = form a) (s : State) :
    strobe f s = true ↔ ∃ a, form a ∈ s.events := by
  rw [strobe_iff]
  constructor
  · rintro ⟨e, mem, seen⟩
    obtain ⟨a, rfl⟩ := (sees e).mp seen
    exact ⟨a, mem⟩
  · rintro ⟨a, mem⟩
    exact ⟨_, mem, (sees _).mpr ⟨a, rfl⟩⟩

/-- The notification of three values. -/
def notifyOf (n : Speed × Osc × Mode) : Event := .notify n.1 n.2.1 n.2.2

theorem strobe_beq_iff (e : Event) (s : State) : strobe (fun e' => e' == e) s = true ↔ e ∈ s.events := by
  rw [strobe_iff]
  simp

/-! ### The drops -/

/-- The reason of an event that is a drop. -/
def dropReason? : Event → Option DropReason
  | .dropped why => some why
  | _ => none

/-- The reasons of the drops among some events, in order. -/
def dropsOf (es : List Event) : List DropReason := es.filterMap dropReason?

@[simp] theorem dropsOf_append (es fs : List Event) : dropsOf (es ++ fs) = dropsOf es ++ dropsOf fs :=
  List.filterMap_append

theorem mem_dropsOf {why : DropReason} {es : List Event} : why ∈ dropsOf es ↔ .dropped why ∈ es := by
  rw [dropsOf, List.mem_filterMap]
  constructor
  · rintro ⟨e, mem, reason⟩
    cases e with
    | dropped =>
      cases reason
      exact mem
    | wr | notify | timerText | log => cases reason
  · exact fun mem => ⟨_, mem, rfl⟩

/-- The pin shows the reason of the first drop. -/
theorem dropReasonPin_eq (es : List Event) : dropReasonPin es = (dropsOf es).head?.map reasonCode := by
  induction es with
  | nil => rfl
  | cons e rest ih =>
    cases e with
    | dropped why => rfl
    | wr | notify | timerText | log => exact ih

theorem dropReasonPin_of_no_drop {es : List Event} (no : ∀ why, Event.dropped why ∉ es) :
    dropReasonPin es = none := by
  have empty : dropsOf es = [] := List.eq_nil_iff_forall_not_mem.mpr fun why mem => no why (mem_dropsOf.mp mem)
  rw [dropReasonPin_eq, empty]
  rfl

theorem dropReasonPin_of_agreed {es : List Event} {why : DropReason} (mem : Event.dropped why ∈ es)
    (agreed : ∀ other, Event.dropped other ∈ es → other = why) :
    dropReasonPin es = some (if why = .busy then 0 else 1) := by
  rw [dropReasonPin_eq]
  match drops : dropsOf es with
  | [] => exact absurd (mem_dropsOf.mpr mem) (by simp [drops])
  | first :: rest =>
    rw [agreed first (mem_dropsOf.mp (by simp [drops]))]
    cases why <;> rfl

@[simp] theorem dropsOf_writeEvents (v : Word16) (wf : Bool) : dropsOf (writeEvents v wf) = [] := by
  cases wf <;> rfl

@[simp] theorem dropsOf_windowEvents (stored decoded : Decoded) : dropsOf (windowEvents stored decoded) = [] := by
  unfold windowEvents
  split_ifs <;> rfl

/-! ### The drops of a cycle agree (70 R148) -/

theorem dropsOf_startDrain (p : Params) (n : List Button) (wf : Bool) (s : Work) :
    dropsOf (startDrain p n wf s).events = dropsOf s.events := by
  cases n with
  | nil => rfl
  | cons b rest => rw [startDrain_cons, dropsOf_append, dropsOf_writeEvents, List.append_nil]

theorem dropsOf_pollSample (p : Params) (raw : Word16) (s : Work) :
    dropsOf (pollSample p raw s).events = dropsOf s.events := by
  obtain ⟨_, same⟩ | ⟨_, _, counted⟩ | ⟨_, _, finalized⟩ := pollSample_cases p raw s
  · rw [same]
  · rw [counted, countSample_events]
  · rw [finalized, finalize_eq, dropsOf_append, dropsOf_windowEvents, List.append_nil, countSample_events]

theorem dropsOf_pollFailed (s : Work) : dropsOf (pollFailed s).events = dropsOf s.events := by
  obtain ⟨_, same⟩ | ⟨_, logged⟩ := pollFailed_cases s
  · rw [same]
  · rw [logged, raise_events, dropsOf_append]
    exact List.append_nil _

theorem dropsOf_delayExpiry {p : Params} {wf : Bool} {s t : Work} (next : delayExpiry p wf s = .next t) :
    dropsOf t.events = dropsOf s.events := by
  obtain ⟨_, ⟨_, released⟩ | ⟨_, asserted⟩ | ⟨_, rfl⟩⟩ := delayExpiry_cases next
  · obtain ⟨_, _, rfl⟩ | ⟨_, _, _, _, rfl⟩ := releaseStep_cases released <;>
      simp only [dropsOf_append, dropsOf_writeEvents, List.append_nil, disarm_events]
  · obtain ⟨_, _, _, rfl⟩ := assertStep_cases asserted
    rw [assertFront_eq, dropsOf_append, dropsOf_writeEvents, List.append_nil, disarm_events]
  · rfl

theorem dropsOf_pollStage (p : Params) (pins : Pins) (s : Work) :
    dropsOf (pollStage p pins s).events = dropsOf s.events := by
  unfold pollStage
  split_ifs
  · exact dropsOf_pollSample p pins.pollData s
  · exact dropsOf_pollFailed s
  · rfl

/-- While `PROC` is false `TADV` is not dropped. -/
theorem dropsOf_tadvStage_of_not_proc (p : Params) (pins : Pins) {s : Work} (sampling : s.proc = false) :
    dropsOf (tadvStage p pins s).events = dropsOf s.events := by
  unfold tadvStage
  split_ifs
  · rw [advanceTimer_of_not_proc p pins.wrFail sampling, dropsOf_startDrain]
  · rfl

/-- While `PROC` is true only `BUSY` is a reason. -/
theorem dropsOf_tadvStage_of_proc (p : Params) (pins : Pins) {s : Work} (busy : s.proc = true) :
    dropsOf (tadvStage p pins s).events = dropsOf s.events ++ if pins.tadvValid then [.busy] else [] := by
  rw [tadvStage_of_proc p pins busy, dropsOf_append]
  split_ifs <;> rfl

/-- After the `CTRL` of a cycle either `PROC` is true and any drop was for `BUSY`, or it is false and any drop was for
`NOSTATE`. -/
theorem dropsOf_ctrlStage (p : Params) (pins : Pins) {s : Work} (noEvents : s.events = []) :
    ((ctrlStage p pins s).proc = true ∧ ∀ why ∈ dropsOf (ctrlStage p pins s).events, why = .busy) ∨
    ((ctrlStage p pins s).proc = false ∧ ∀ why ∈ dropsOf (ctrlStage p pins s).events, why = .noState) := by
  have noDrop {P : DropReason → Prop} {t : Work} (same : dropsOf t.events = dropsOf s.events) :
      ∀ why ∈ dropsOf t.events, P why := by
    rw [same, noEvents]
    nofun
  unfold ctrlStage
  split_ifs with present
  · obtain ⟨busy, dropped⟩ | ⟨sampling, _, dropped⟩ | ⟨sampling, _, started⟩ :=
      control_cases p pins.wrFail (decodeCtrlw pins.ctrlReq) s
    · rw [dropped]
      exact .inl ⟨busy, by simp [noEvents, dropsOf, dropReason?]⟩
    · rw [dropped]
      exact .inr ⟨sampling, by simp [noEvents, dropsOf, dropReason?]⟩
    · rw [started]
      cases high : (startDrain p (requestSymbols p s.ds (decodeCtrlw pins.ctrlReq)) pins.wrFail s).proc with
      | true => exact .inl ⟨rfl, noDrop (dropsOf_startDrain ..)⟩
      | false => exact .inr ⟨rfl, noDrop (dropsOf_startDrain ..)⟩
  · cases high : s.proc with
    | true => exact .inl ⟨rfl, noDrop rfl⟩
    | false => exact .inr ⟨rfl, noDrop rfl⟩

theorem dropsOf_requestsOf (p : Params) (pins : Pins) {s : Work} (noEvents : s.events = []) :
    ∃ reason, ∀ why ∈ dropsOf (requestsOf p pins s).events, why = reason := by
  rw [requestsOf_eq_stages, dropsOf_pollStage]
  obtain ⟨busy, drops⟩ | ⟨sampling, drops⟩ := dropsOf_ctrlStage p pins noEvents
  · refine ⟨.busy, fun why mem => ?_⟩
    rw [dropsOf_tadvStage_of_proc p pins busy, List.mem_append] at mem
    obtain ctrl | tadv := mem
    · exact drops why ctrl
    · split_ifs at tadv
      · exact List.mem_singleton.mp tadv
      · cases tadv
  · exact ⟨.noState, by rw [dropsOf_tadvStage_of_not_proc p pins sampling]; exact drops⟩

/-- No drop comes after the requests. -/
theorem dropsOf_runCycle {p : Params} {pins : Pins} {s t : Work} (next : runCycle p pins s = .next t) :
    dropsOf t.events = dropsOf (requestsOf p pins s).events := by
  obtain ⟨_, expired⟩ | ⟨_, _, ticked⟩ | ⟨_, _, idle⟩ := runCycle_cases p pins s
  · exact dropsOf_delayExpiry (expired.symm.trans next)
  · cases ticked.symm.trans next
    rfl
  · cases idle.symm.trans next
    rfl

/-! ### The values written -/

/-- From `s` to `t` the block appends its events, and `OUT` and the write port follow the writes among them. -/
def FollowsWrites (s t : Work) : Prop :=
  ∃ es, t.events = s.events ++ es ∧ t.out = (writesOf es).getLastD s.out ∧ t.port = (writesOf es).getLastD s.port

theorem FollowsWrites.refl (s : Work) : FollowsWrites s s := ⟨[], (List.append_nil _).symm, rfl, rfl⟩

theorem FollowsWrites.trans {s t u : Work} (follows : FollowsWrites s t) (once : WritesAtMostOnce t u) :
    FollowsWrites s u := by
  obtain ⟨es, events, out, port⟩ := follows
  obtain ⟨fs, events', ⟨noWrite, out', port'⟩ | ⟨write, port'⟩⟩ := once
  · refine ⟨es ++ fs, by rw [events', events, List.append_assoc], ?_, ?_⟩ <;>
      rw [writesOf_append, noWrite, List.append_nil]
    · rw [out', out]
    · rw [port', port]
  · refine ⟨es ++ fs, by rw [events', events, List.append_assoc], ?_, ?_⟩ <;>
      rw [writesOf_append, write, List.getLastD_concat]
    exact port'

theorem kept_followsWrites (p : Params) (s : Work) : Kept p (FollowsWrites s) where
  polled := fun raw follows => follows.trans (pollSample_writesAtMostOnce p raw _)
  failed := fun follows => follows.trans (pollFailed_writesAtMostOnce _)
  moved := fun move follows => follows.trans move.writesAtMostOnce
  ticked := id

theorem clockCycle_followsWrites {pins : Pins} {s t : State} (running : pins.rst = false)
    (next : clockCycle pins s = .next t) : FollowsWrites s.toWork t.toWork := by
  obtain ⟨_, w, cycle, rfl⟩ := clockCycle_cases running next
  exact (kept_followsWrites s.params s.toWork).runCycle cycle (.refl s.toWork)

/-- Settles O60: each strobe asks for its event; a cycle's operations write by the shared step that sets `OUT` and the
port; and its requests agree on the mode they are dropped in. -/
theorem outputPins : Obligations.OutputPins := by
  unfold Obligations.OutputPins
  refine ⟨fun s t => ⟨rfl, rfl, rfl, rfl, rfl, rfl, ?wr, ?notify, ?timerText, strobe_beq_iff _ t,
      strobe_beq_iff _ t, ?dropped, dropReasonPin_of_no_drop, fun why => dropReasonPin_of_agreed⟩,
    fun pins s t noEvents next => ?port, fun pins s t running noEvents next => ⟨?out, ?agree⟩⟩
  case wr => exact strobe_iff_exists Event.wr (fun e => by cases e <;> simp) t
  case notify =>
    refine (strobe_iff_exists notifyOf (fun e => by cases e <;> simp [notifyOf]) t).trans ?_
    simp [notifyOf]
  case timerText => exact strobe_iff_exists Event.timerText (fun e => by cases e <;> simp) t
  case dropped => exact strobe_iff_exists Event.dropped (fun e => by cases e <;> simp) t
  case port =>
    cases reset : pins.rst with
    | true =>
      rw [clockCycle_of_rst s reset] at next
      cases next
      rfl
    | false =>
      obtain ⟨es, events, _, port⟩ := clockCycle_followsWrites reset next
      rw [noEvents, List.nil_append] at events
      rw [events]
      exact port
  case out =>
    obtain ⟨es, events, out, _⟩ := clockCycle_followsWrites running.1 next
    rw [noEvents, List.nil_append] at events
    rw [events]
    exact out
  case agree =>
    intro why other mem mem'
    obtain ⟨_, w, cycle, rfl⟩ := clockCycle_cases running.1 next
    obtain ⟨reason, agreed⟩ := dropsOf_requestsOf s.params pins noEvents
    rw [← dropsOf_runCycle cycle] at agreed
    rw [agreed why (mem_dropsOf.mpr mem), agreed other (mem_dropsOf.mpr mem')]

end Sys2Proof.Machine
end
